-- ==== Sys2Proof/Word.lean ====
section
/-! DEFINITION. The bit-vector types the spec's registers and ports have (10_state.md R14, R17). A one-bit
register, flag or pin is a `Bool` (`true` is 1; for the line, `true` is the high level, R13). -/

namespace Sys2Proof

/-- The sequencer `st` (R18): bits 3..0 hold the operation code (30_encoding.md R55). -/
abbrev StCode := BitVec 4

/-- The bit counter `bitcnt` (R19). -/
abbrev BitCount := BitVec 6

/-- The frame shift register `sr`, format `FRAME40` (R20, 30_encoding.md R63). -/
abbrev Frame := BitVec 40

/-- One byte field. -/
abbrev Byte := BitVec 8

/-- The error code `err` (R28, 30_encoding.md R58). -/
abbrev ErrCode := BitVec 2

/-- A converter output in tenths (42_frame_checksum.md R129). -/
abbrev Tenths := BitVec 12

end Sys2Proof
end

