-- ==== Sys2Proof/Config.lean ====
section
/-! DEFINITION. What is fixed for a run and what is free in it: the implementation parameters of
00_scope.md R10, the input pins of 10_state.md R13, and the free pin levels (R9, 92_eei_decisions.md D27). -/

namespace Sys2Proof

/-- The implementation parameters of 00_scope.md R10, under the spec's own names. They are static (R170).
`hsWaitCap = none` is the reference behaviour, an unbounded handshake wait. -/
structure Params where
  ticksPerUs     : Nat
  startLowTicks  : Nat
  startHighTicks : Nat
  thresholdTicks : Nat
  bitCeil        : Nat
  hsWaitCap      : Option Nat
  csumWide       : Bool
  tmrW           : Nat
  iterW          : Nat
  deriving DecidableEq, Repr

/-- The column "value" of R10: the values this hardware takes. -/
def Params.hardware : Params where
  ticksPerUs     := 4
  startLowTicks  := 72000
  startHighTicks := 1
  thresholdTicks := 280
  bitCeil        := 1000
  hsWaitCap      := none
  csumWide       := false
  tmrW           := 20
  iterW          := 16

/-- The largest value of `tmr` and of the diagnostic timing registers, `TMR_W` bits wide (R10). -/
def Params.tmrMax (p : Params) : Nat := 2 ^ p.tmrW - 1

/-- The largest value of `iter`, `ITER_W` bits wide (R10). -/
def Params.iterMax (p : Params) : Nat := 2 ^ p.iterW - 1

/-- `NBITS`: bits in a frame, a fixed constant (R10). -/
def Config.nbits : Nat := 40

/-- `NBYTES`: byte fields in a frame, a fixed constant (R10). -/
def Config.nbytes : Nat := 5

/-- The levels of the input pins at one rising edge of `clk` (10_state.md R13); `clk` itself is the step. -/
structure Inputs where
  rst    : Bool
  start  : Bool
  lineIn : Bool
  diagEn : Bool
  deriving DecidableEq, Repr, Inhabited

/-- DESIGN CHOICE (notes/assumptions/8.md): the levels of a host that asks for nothing and a line at rest, used
only where `withFetchWord` has to write an entry of the input queue and there is none. -/
def Inputs.quiet : Inputs where
  rst    := false
  start  := false
  lineIn := true
  diagEn := false

/-- FREE VALUE (notes/assumptions/2.md): the pin levels at the edge with this number, when the model's input queue holds
no entry for it and no levels are held. No body, so no proof can know a level: the spec puts no law on the inputs (R9, D27). -/
opaque Config.freeInputs : Nat → Inputs

end Sys2Proof
end

