-- ==== Sys2Proof/Syntax.lean ====
section
/-! DEFINITION. The operations of the sequencer, one constructor per row of spec/opcode_table.json
(30_encoding.md R56). No operation has an operand field (R55). -/

namespace Sys2Proof

/-- The nine operations (R56). The reserved codes have no row and no constructor (R57, R72). -/
inductive Instr where
  /-- `IDLE`, between cycles (R75, R76). -/
  | idle
  /-- `START_LOW`, the start signal's low part (R77). -/
  | startLow
  /-- `START_HIGH`, the start signal's high part (R78). -/
  | startHigh
  /-- `HS_WAIT_REL`, wait for the sensor to take the released line (R80). -/
  | hsWaitRel
  /-- `HS_WAIT_ACKL`, the sensor's acknowledgement low pulse (R81). -/
  | hsWaitAckl
  /-- `HS_WAIT_ACKH`, the sensor's acknowledgement high pulse (R82). -/
  | hsWaitAckh
  /-- `BIT_GAP`, the inter-bit gap (R96, R97). -/
  | bitGap
  /-- `BIT_HIGH`, the high-pulse measurement (R99, R100, R101). -/
  | bitHigh
  /-- `CHECK`, the checksum validation that ends a cycle (R118). -/
  | check
  deriving DecidableEq, Repr

end Sys2Proof
end

