-- ==== Sys2Proof/WellFormed.lean ====
section
/-! DEFINITION. Well-formedness of what a run is given: instructions (no operand field, so nothing to check) and
parameter sets (00_scope.md R10, R11). -/

namespace Sys2Proof

/-- Every operation is well formed: format `ST4` has no operand field and no immediate (30_encoding.md R55). -/
def Instr.wf : Instr → Bool
  | .idle => true
  | .startLow => true
  | .startHigh => true
  | .hsWaitRel => true
  | .hsWaitAckl => true
  | .hsWaitAckh => true
  | .bitGap => true
  | .bitHigh => true
  | .check => true

/-- R10, R11: 1 <= `START_LOW_TICKS` <= 2^`TMR_W` - 1. -/
def Params.startLowFits (p : Params) : Bool :=
  decide (1 ≤ p.startLowTicks ∧ p.startLowTicks ≤ p.tmrMax)

/-- R10, R11: 1 <= `START_HIGH_TICKS` <= 2^`TMR_W` - 1. -/
def Params.startHighFits (p : Params) : Bool :=
  decide (1 ≤ p.startHighTicks ∧ p.startHighTicks ≤ p.tmrMax)

/-- R10, R11: 1 <= `THRESHOLD_TICKS` <= `BIT_CEIL`. -/
def Params.thresholdFits (p : Params) : Bool :=
  decide (1 ≤ p.thresholdTicks ∧ p.thresholdTicks ≤ p.bitCeil)

/-- R11: `BIT_CEIL` <= 2^`ITER_W` - 1 and `BIT_CEIL` + 1 <= 2^`TMR_W` - 1. -/
def Params.ceilFits (p : Params) : Bool :=
  decide (p.bitCeil ≤ p.iterMax ∧ p.bitCeil + 1 ≤ p.tmrMax)

/-- R10, R11: when `HS_WAIT_CAP` = `some C`, 1 <= C <= 2^`ITER_W` - 1. -/
def Params.capFits (p : Params) : Bool :=
  match p.hsWaitCap with
  | none => true
  | some c => decide (1 ≤ c ∧ c ≤ p.iterMax)

/-- The constraints R10 and R11 put on every parameter set. The step gives a set that breaks one no behaviour
(93_implementation_defined.md U8). -/
def Params.ok (p : Params) : Bool :=
  p.startLowFits && p.startHighFits && p.thresholdFits && p.ceilFits && p.capFits

/-- R11's further condition, which no step depends on: the start pulse is at least 18,000 microseconds long. -/
def Params.startPulseLongEnough (p : Params) : Bool :=
  decide (18000 * p.ticksPerUs ≤ p.startLowTicks)

/-- R11, 70_reset_and_hazards.md R181: at `TICKS_PER_US` ticks a microsecond the document's 28 microsecond pulse is
below the threshold and its 70 microsecond pulse is not. No step depends on it. -/
def Params.classifiesDocument (p : Params) : Bool :=
  decide (28 * p.ticksPerUs < p.thresholdTicks ∧ p.thresholdTicks ≤ 70 * p.ticksPerUs)

end Sys2Proof
end

