-- ==== Sys2Proof/Decode.lean ====
section
/-! DEFINITION. The code map of the sequencer (30_encoding.md R55 to R57, spec/opcode_table.json): the decoder, total on
every 4-bit code, and after it the encoder. -/

namespace Sys2Proof

/-- Why a code is no operation of the table. -/
inductive DecodeReject where
  /-- A reserved code, 9 to 15 (R57): the table has no row for it (R72). The step then performs R87. -/
  | reservedCode (code : StCode)
  deriving DecidableEq, Repr

/-- The operation a value of `st` selects (R55, R56), or the name of why there is none. -/
def decode (code : StCode) : Except DecodeReject Instr :=
  if code = 0b0000#4 then .ok .idle
  else if code = 0b0001#4 then .ok .startLow
  else if code = 0b0010#4 then .ok .startHigh
  else if code = 0b0011#4 then .ok .hsWaitRel
  else if code = 0b0100#4 then .ok .hsWaitAckl
  else if code = 0b0101#4 then .ok .hsWaitAckh
  else if code = 0b0110#4 then .ok .bitGap
  else if code = 0b0111#4 then .ok .bitHigh
  else if code = 0b1000#4 then .ok .check
  else .error (.reservedCode code)

/-- The code of an operation (R56, column "binary"). -/
def encode : Instr → StCode
  | .idle => 0b0000#4
  | .startLow => 0b0001#4
  | .startHigh => 0b0010#4
  | .hsWaitRel => 0b0011#4
  | .hsWaitAckl => 0b0100#4
  | .hsWaitAckh => 0b0101#4
  | .bitGap => 0b0110#4
  | .bitHigh => 0b0111#4
  | .check => 0b1000#4

/-- The `nbits` low bits of `w`, laid out as `st` holds a code: bits 3..0, and there is no other field (R55).
The register has no bit above 3 to put a further bit of `w` in (notes/assumptions/9.md). -/
def tableWordCode (nbits w : Nat) : StCode :=
  BitVec.ofNat 4 (w % 2 ^ nbits)

/-- The operation the decoder reads from a word numbered as spec/opcode_table.json numbers it. -/
def decodeTableWord (nbits w : Nat) : Option Instr :=
  match decode (tableWordCode nbits w) with
  | .ok i => some i
  | .error _ => none

end Sys2Proof
end

