-- ==== Sys2Proof/Machine/State.lean ====
section
/-! DEFINITION. The architectural state (10_state.md R17, the complete list of registers), the reasons a step can
stop, and the state after reset (70_reset_and_hazards.md R160). -/

namespace Sys2Proof.Machine

/-- The registers of R17, then the model's own four fields: the static parameters, the pin levels the host and the
line will present, the levels they hold after those, and the number of edges taken (INVENTORY.md, State). `tmr`, `iter` and the diagnostic timing
registers are naturals, because their widths are parameters; the saturating increments keep them in their widths
(notes/assumptions/5.md). -/
@[ext]
structure State where
  /-- The sequencer: which operation the next edge performs (R18). -/
  st          : StCode
  /-- Raw Bits recorded so far in this cycle, 0..40 (R19). -/
  bitcnt      : BitCount
  /-- The frame shift register (R20). -/
  sr          : Frame
  /-- The pulse-width timer, `TMR_W` bits (R22). -/
  tmr         : Nat
  /-- The software-timeout counter, `ITER_W` bits (R23). -/
  iter        : Nat
  /-- Sticky: a bit timed out in this cycle (R25). -/
  toSeen      : Bool
  /-- The inter-bit gap of the bit in progress, `TMR_W` bits (R26). -/
  gapLat      : Nat
  /-- Result: the frame passed (R27). -/
  valid       : Bool
  /-- Result: error code (R28). -/
  err         : ErrCode
  /-- Pulse: a cycle ended at the last edge (R29). -/
  done        : Bool
  /-- Pulse: a bit was completed with `diag_en` = 1 (R29, R106). -/
  diagBitStb  : Bool
  /-- Diagnostics: low samples before the bit's pulse, `TMR_W` bits (R106). -/
  diagGap     : Nat
  /-- Diagnostics: high samples of the bit, `TMR_W` bits (R106). -/
  diagWidth   : Nat
  /-- Diagnostics: the Raw Bit recorded (R106). -/
  diagBit     : Bool
  /-- Diagnostics: the bit ended by timeout (R106). -/
  diagBitTo   : Bool
  /-- Pulse: a byte field was completed with `diag_en` = 1 (R29, R107). -/
  diagByteStb : Bool
  /-- Diagnostics: the byte field just completed (R107). -/
  diagByte    : Byte
  /-- Diagnostics: its index, 0..4 (R107). -/
  diagByteIdx : BitVec 3
  /-- The model's own: the static parameters, which no step writes (R10, R170; notes/assumptions/3.md). -/
  params      : Params
  /-- The model's own: the pin levels at the coming edges, next first (R9, R13; notes/assumptions/1.md). -/
  inputs      : List Inputs
  /-- The model's own: the pin levels held at every edge after the last entry of `inputs`, as under a last token `H*` or
  `L*` (30_encoding.md R70); `none` where nothing holds them and they are free. No step writes it
  (notes/assumptions/15.md). -/
  held        : Option Inputs
  /-- The model's own: edges taken, the index of the free pin levels (notes/assumptions/2.md). -/
  edge        : Nat
  deriving DecidableEq, Repr

/-- Reasons the machine stops with a fault: none. "the core never raises a fatal process-level error for a bad sensor
read" (60_exceptions.md R135), and a hang is an infinite execution, not a stuck state (R157; notes/assumptions/10.md).
Safe: the type is empty, so no step can fault. -/
inductive Fault where
  deriving DecidableEq, Repr

/-- Reasons the model gives no next state. -/
inductive Refusal where
  /-- An operation that has no meaning yet. Raised by no arm of this model. Safe. -/
  | notModelled (mnemonic : String)
  /-- Raised by `step`: the parameter set breaks 00_scope.md R10 or R11, for which the spec says to refuse
  (93_implementation_defined.md U8; notes/assumptions/4.md). Safe: a claim about such a set is never about a next state. -/
  | parametersOutOfRange
  deriving DecidableEq, Repr

/-- The machine right after a reset edge: every register of R17 at the value R160 gives it. The parameters are those
of this hardware (R10); the queue of inputs is empty, no level is held and no edge is counted yet (DESIGN CHOICE,
notes/assumptions/1.md, 2.md and 15.md: the spec gives these no value, they are no registers). -/
def State.reset : State where
  st          := 0#4
  bitcnt      := 0#6
  sr          := 0#40
  tmr         := 0
  iter        := 0
  toSeen      := false
  gapLat      := 0
  valid       := false
  err         := 0#2
  done        := false
  diagBitStb  := false
  diagGap     := 0
  diagWidth   := 0
  diagBit     := false
  diagBitTo   := false
  diagByteStb := false
  diagByte    := 0#8
  diagByteIdx := 0#3
  params      := Params.hardware
  inputs      := []
  held        := none
  edge        := 0

end Sys2Proof.Machine
end

