-- ==== Sys2Proof/Machine/Operands.lean ====
section
/-! DEFINITION. The operands of the operations: the pin levels of the edge, the sample `s` (00_scope.md R12), the
slices and shifts of the frame register, and the comparator. -/

namespace Sys2Proof.Machine

/-- The pin levels at the coming edge (10_state.md R13): the next entry of the queue, else the held levels
(30_encoding.md R70), else the free levels of this edge (notes/assumptions/1.md, 2.md, 15.md). -/
def State.pins (s : State) : Inputs :=
  s.inputs.headD (s.held.getD (Config.freeInputs s.edge))

/-- `LineRead()`, the sample `s` of R12: the level of `line_in` at the edge; reading has no side effect (R41). -/
def State.lineRead (s : State) : Bool :=
  s.pins.lineIn

/-- The code of the operation the coming edge performs (R55): the value of `st` before the edge. -/
def State.fetchCode (s : State) : StCode :=
  s.st

/-- `{ x[38:0], b }`: a Raw Bit shifted into the frame register at bit 0 (R20, 41_bit_decoder.md R102). -/
def shiftIn (x : Frame) (b : Bool) : Frame :=
  (x.setWidth 39).concat b

/-- `{ x[6:0], b }`: a Raw Bit shifted into a byte (41_bit_decoder.md R107, 42_frame_checksum.md R116). -/
def shiftInByte (x : Byte) (b : Bool) : Byte :=
  (x.setWidth 7).concat b

/-- `humidityInt` = `sr[39:32]` (42_frame_checksum.md R115). -/
def humidityInt (x : Frame) : Byte := x.extractLsb' 32 8

/-- `humidityFrac` = `sr[31:24]` (R115). -/
def humidityFrac (x : Frame) : Byte := x.extractLsb' 24 8

/-- `temperatureInt` = `sr[23:16]` (R115). -/
def temperatureInt (x : Frame) : Byte := x.extractLsb' 16 8

/-- `temperatureFrac` = `sr[15:8]` (R115). -/
def temperatureFrac (x : Frame) : Byte := x.extractLsb' 8 8

/-- `checksum` = `sr[7:0]` (R115). -/
def checksumByte (x : Frame) : Byte := x.extractLsb' 0 8

/-- `bitcnt[5:3]`: the index of the byte field being filled (10_state.md R19). -/
def byteIndex (n : BitCount) : BitVec 3 := n.extractLsb' 3 3

/-- `bitcnt[2:0]`: the index of the next bit inside its byte field, 0 the most significant (10_state.md R19). -/
def bitIndex (n : BitCount) : BitVec 3 := n.extractLsb' 0 3

/-- `Classify(n)`, the bit-threshold comparator, inclusive on the high side (41_bit_decoder.md R103). -/
def classify (p : Params) (n : Nat) : Bool :=
  decide (p.thresholdTicks ≤ n)

/-- `toByteValue(b)` = Σ `b[i]`·2^(7-i), `b[0]` first received (42_frame_checksum.md R116, 30_encoding.md R64). -/
def toByteValue (b : Fin 8 → Bool) : Nat :=
  ((List.finRange 8).map fun i => (b i).toNat * 2 ^ (7 - i.val)).sum

/-- The bits of a byte in order of arrival, `b[i]` = `v[7-i]` (R117). -/
def byteBits (v : Byte) : Fin 8 → Bool :=
  fun i => v.getLsbD (7 - i.val)

/-- `Sum(sr)`: the numeric sum of the four data bytes, without loss (R119). -/
def byteSum (x : Frame) : Nat :=
  (humidityInt x).toNat + (humidityFrac x).toNat + (temperatureInt x).toNat + (temperatureFrac x).toNat

end Sys2Proof.Machine
end

