-- ==== Sys2Proof/Machine/Flags.lean ====
section
/-! DEFINITION. The error codes (30_encoding.md R58) and every flag the spec computes: the checksum verdict
(42_frame_checksum.md R120), `valid` and `err` at the end of a cycle (R118), `busy` (10_state.md R16). -/

namespace Sys2Proof.Machine

/-- `ERR_NONE`: a valid cycle, or no cycle finished yet (R58). -/
def errNone : ErrCode := 0b00#2

/-- `ERR_HANDSHAKE`: HandshakeTimeout (R58). -/
def errHandshake : ErrCode := 0b01#2

/-- `ERR_BIT_TIMEOUT`: BitTimeout (R58). -/
def errBitTimeout : ErrCode := 0b10#2

/-- `ERR_CHECKSUM`: ChecksumMismatch (R58). -/
def errChecksum : ErrCode := 0b11#2

/-- `ChecksumOk(sr)` (R120): modulo 256, or the reference's comparison without the modulo where `CSUM_WIDE` is true. -/
def checksumOk (p : Params) (x : Frame) : Bool :=
  if p.csumWide then decide (byteSum x = (checksumByte x).toNat)
  else decide (byteSum x % 256 = (checksumByte x).toNat)

/-- The value `CHECK` gives `valid` (R118, R121). -/
def verdictValid (p : Params) (x : Frame) (toSeen : Bool) : Bool :=
  checksumOk p x && !toSeen

/-- The value `CHECK` gives `err` (R118): a bit timeout goes before a checksum mismatch (60_exceptions.md R144). -/
def verdictErr (p : Params) (x : Frame) (toSeen : Bool) : ErrCode :=
  if toSeen then errBitTimeout
  else if checksumOk p x then errNone
  else errChecksum

/-- `busy` (10_state.md R16): 1 when `st` is not `IDLE`, a reserved code included. -/
def busyOf (st : StCode) : Bool :=
  decide (st ≠ 0#4)

end Sys2Proof.Machine
end

