-- ==== Sys2Proof/Machine/Ops.lean ====
section
/-! DEFINITION. The operations over the registers that the meanings share: what every clock edge does, the saturating
counters, entering a wait state, the error outcomes of 60_exceptions.md, accepting a request, and reset. -/

namespace Sys2Proof.Machine

/-- `inc_T(x)` (00_scope.md R12): increment, saturating at 2^`TMR_W` - 1. -/
def incT (p : Params) (x : Nat) : Nat :=
  min (x + 1) p.tmrMax

/-- `inc_I(x)` (00_scope.md R12): increment, saturating at 2^`ITER_W` - 1. -/
def incI (p : Params) (x : Nat) : Nat :=
  min (x + 1) p.iterMax

/-- The three pulse registers become 0 at every edge unless the operation assigns 1 (10_state.md R29). -/
def State.clearPulses (s : State) : State :=
  { s with done := false, diagBitStb := false, diagByteStb := false }

/-- The edge is taken: its entry of the input queue is used up and the next edge has the next number
(notes/assumptions/1.md, 2.md). No register of R17 is touched. -/
def State.nextEdge (s : State) : State :=
  { s with inputs := s.inputs.tail, edge := s.edge + 1 }

/-- One clock edge with `rst` = 0 (00_scope.md R8): the pulse registers fall, the operation's assignments are made
from the values before the edge, and the edge is taken. Every operation has a next state. -/
def atEdge (body : State → State) (s : State) : Host.Outcome State Fault Refusal :=
  .next (body s.clearPulses).nextEdge

/-- A wait state counts a sample at its waiting level (40_handshake.md R79). -/
def State.countSample (s : State) : State :=
  { s with tmr := incT s.params s.tmr, iter := incI s.params s.iter }

/-- `START_LOW` and `START_HIGH` count a period in `tmr` alone (R77, R78). -/
def State.countPeriod (s : State) : State :=
  { s with tmr := incT s.params s.tmr }

/-- Both counters start again from `n` samples counted (R79). -/
def State.restartCounters (n : Nat) (s : State) : State :=
  { s with tmr := n, iter := n }

/-- A wait state is entered with `n` samples counted: 1 when a level change caused the entry, 0 otherwise (R79). -/
def State.enterWait (next : Instr) (n : Nat) (s : State) : State :=
  { s with st := encode next, tmr := n, iter := n }

/-- Whether the cap of a handshake wait is reached: `HS_WAIT_CAP` = `some C` and `iter` >= C (R80, R81, R82). -/
def State.capReached (s : State) : Bool :=
  match s.params.hsWaitCap with
  | none => false
  | some c => decide (c ≤ s.iter)

/-- TAKING AN ERROR OUTCOME that ends the cycle, the last part of every `raise` (60_exceptions.md R138, R145): `valid`
and `err` take the outcome's values, `done` is raised and control goes to `IDLE`. No register is saved and there is no
vector; the return is the block being in `IDLE` (R146). A cycle without error ends the same way with `ERR_NONE`. -/
def State.endCycle (valid : Bool) (err : ErrCode) (s : State) : State :=
  { s with valid := valid, err := err, done := true, st := encode .idle }

/-- `raise HandshakeTimeout` (40_handshake.md R83). -/
def State.raiseHandshakeTimeout (s : State) : State :=
  s.endCycle false errHandshake

/-- `raise BitTimeout` at its cause: the sticky mark alone; the report is `CHECK`'s (R138, 41_bit_decoder.md R101). -/
def State.markBitTimeout (s : State) : State :=
  { s with toSeen := true }

/-- One edge of a handshake wait with waiting level `level` and successor `next`, the tests in the order of
60_exceptions.md R144: level change, cap, counting (40_handshake.md R79, R80, R81, R82). -/
def State.handshakeWait (level : Bool) (next : Instr) (s : State) : State :=
  if s.lineRead ≠ level then s.enterWait next 1
  else if s.capReached then s.raiseHandshakeTimeout
  else s.countSample

/-- `IDLE` accepts a request (R76): the results of the last cycle and every register the cycle reads are cleared. -/
def State.acceptStart (s : State) : State :=
  { s with
    st := encode .startLow
    tmr := 0
    iter := 0
    sr := 0#40
    bitcnt := 0#6
    toSeen := false
    gapLat := 0
    valid := false
    err := errNone }

/-- An edge with `rst` = 1 (70_reset_and_hazards.md R160): every register of R17 takes its reset value, whatever `st`
and the other pins are. The parameters and the held levels are no registers and stay (R170; notes/assumptions/15.md);
the edge is taken. -/
def State.resetEdge (s : State) : State :=
  { State.reset with params := s.params, inputs := s.inputs.tail, held := s.held, edge := s.edge + 1 }

end Sys2Proof.Machine
end

