-- ==== Sys2Proof/Machine/BitDecoder.lean ====
section
/-! DEFINITION. The operations of 41_bit_decoder.md: `BIT_GAP` and `BIT_HIGH`, with `CompleteBit` (R102), `DiagBit`
(R106) and `DiagByte` (R107). -/

namespace Sys2Proof.Machine

/-- `DiagBit(b, t, w)` (R106): the data registers are always written; only the strobe is gated by `diag_en`. -/
def State.diagBitRecord (b t : Bool) (w : Nat) (s : State) : State :=
  { s with
    diagGap := s.gapLat
    diagWidth := w
    diagBit := b
    diagBitTo := t
    diagBitStb := s.pins.diagEn }

/-- `DiagByte()` (R107) with `b` the bit being recorded and `sr`, `bitcnt` the values `x`, `n` before the edge. -/
def State.diagByteRecord (x : Frame) (n : BitCount) (b : Bool) (s : State) : State :=
  { s with
    diagByte := shiftInByte (x.setWidth 8) b
    diagByteIdx := byteIndex n
    diagByteStb := s.pins.diagEn }

/-- The first two lines and the branch of `CompleteBit` (R102): the bit is shifted in and counted, and the 40th sends
`st` to `CHECK`. -/
def State.recordBit (b : Bool) (s : State) : State :=
  { s with
    sr := shiftIn s.sr b
    bitcnt := s.bitcnt + 1#6
    st := if s.bitcnt = 39#6 then encode .check else encode .bitGap }

/-- `CompleteBit(b, t, w)` (R102). -/
def State.completeBit (b t : Bool) (w : Nat) (s : State) : State :=
  let recorded := (s.recordBit b).diagBitRecord b t w
  if bitIndex s.bitcnt = 7#3 then recorded.diagByteRecord s.sr s.bitcnt b else recorded

/-- The gap of the bit in progress is latched for the diagnostics (R97, 10_state.md R26). -/
def State.latchGap (gap : Nat) (s : State) : State :=
  { s with gapLat := gap }

/-- `BIT_GAP`: a low sample is counted (R96); a high one latches the gap and starts the pulse at 1 (R97). There is no
cap in any configuration (R98). -/
def State.bitGapOp (s : State) : State :=
  if s.lineRead then (s.enterWait .bitHigh 1).latchGap s.tmr
  else s.countSample

/-- `BIT_GAP`. -/
def execBitGap (s : State) : Host.Outcome State Fault Refusal :=
  atEdge State.bitGapOp s

/-- `BIT_HIGH`: a low sample classifies the pulse (R100); a high one is counted below the ceiling (R99) and times the
bit out at it (R101), which records 0 whatever the comparator says (R104). -/
def State.bitHighOp (s : State) : State :=
  if s.lineRead then
    if s.iter < s.params.bitCeil then s.countSample
    else (s.completeBit false true (incT s.params s.tmr)).markBitTimeout.restartCounters 0
  else (s.completeBit (classify s.params s.tmr) false s.tmr).restartCounters 1

/-- `BIT_HIGH`. -/
def execBitHigh (s : State) : Host.Outcome State Fault Refusal :=
  atEdge State.bitHighOp s

end Sys2Proof.Machine
end

