-- ==== Sys2Proof/Machine/FrameCheck.lean ====
section
/-! DEFINITION. The operation of 42_frame_checksum.md: `CHECK`. -/

namespace Sys2Proof.Machine

/-- `CHECK` (R118): one edge; the verdict on `sr` and `to_seen`, `done`, back to `IDLE`. -/
def State.checkOp (s : State) : State :=
  s.endCycle (verdictValid s.params s.sr s.toSeen) (verdictErr s.params s.sr s.toSeen)

/-- `CHECK`. -/
def execCheck (s : State) : Host.Outcome State Fault Refusal :=
  atEdge State.checkOp s

end Sys2Proof.Machine
end

