-- ==== Sys2Proof/Machine/Handshake.lean ====
section
/-! DEFINITION. The operations of 40_handshake.md: `IDLE`, `START_LOW`, `START_HIGH`, `HS_WAIT_REL`, `HS_WAIT_ACKL`,
`HS_WAIT_ACKH`, and `RESERVED`, each at an edge with `rst` = 0. -/

namespace Sys2Proof.Machine

/-- `IDLE` (R75, R76): `start` is level-sensitive and read here alone. -/
def State.idleOp (s : State) : State :=
  if s.pins.start then s.acceptStart else s

/-- `IDLE`. -/
def execIdle (s : State) : Host.Outcome State Fault Refusal :=
  atEdge State.idleOp s

/-- The low part of the start signal is over (R77): `iter` is not assigned. -/
def State.endStartLow (s : State) : State :=
  { s with st := encode .startHigh, tmr := 0 }

/-- `START_LOW` (R77): held for exactly `START_LOW_TICKS` periods. -/
def State.startLowOp (s : State) : State :=
  if s.params.startLowTicks - 1 ≤ s.tmr then s.endStartLow
  else s.countPeriod

/-- `START_LOW`. -/
def execStartLow (s : State) : Host.Outcome State Fault Refusal :=
  atEdge State.startLowOp s

/-- `START_HIGH` (R78): held for exactly `START_HIGH_TICKS` periods; the first wait starts at 0 (R79). -/
def State.startHighOp (s : State) : State :=
  if s.params.startHighTicks - 1 ≤ s.tmr then s.enterWait .hsWaitRel 0
  else s.countPeriod

/-- `START_HIGH`. -/
def execStartHigh (s : State) : Host.Outcome State Fault Refusal :=
  atEdge State.startHighOp s

/-- `HS_WAIT_REL` (R80): waits while the line reads high. -/
def execHsWaitRel (s : State) : Host.Outcome State Fault Refusal :=
  atEdge (State.handshakeWait true .hsWaitAckl) s

/-- `HS_WAIT_ACKL` (R81): waits while the line reads low. -/
def execHsWaitAckl (s : State) : Host.Outcome State Fault Refusal :=
  atEdge (State.handshakeWait false .hsWaitAckh) s

/-- `HS_WAIT_ACKH` (R82): waits while the line reads high. -/
def execHsWaitAckh (s : State) : Host.Outcome State Fault Refusal :=
  atEdge (State.handshakeWait true .bitGap) s

/-- `RESERVED` (R87): back to `IDLE`, nothing else assigned, `done` not raised. -/
def State.reservedOp (s : State) : State :=
  { s with st := encode .idle }

/-- `RESERVED`, the operation of the codes 9 to 15, which no constructor of `Instr` stands for
(notes/assumptions/6.md); the step performs it where the decoder rejects the code. -/
def execReserved (s : State) : Host.Outcome State Fault Refusal :=
  atEdge State.reservedOp s

end Sys2Proof.Machine
end

