-- ==== Sys2Proof/Machine/Dispatch.lean ====
section
/-! DEFINITION. The operation table (30_encoding.md R56): one arm per operation, each a direct call of its meaning. -/

namespace Sys2Proof.Machine

def exec (i : Instr) (s : State) : Host.Outcome State Fault Refusal :=
  match i with
  | .idle => Sys2Proof.Machine.execIdle s
  | .startLow => Sys2Proof.Machine.execStartLow s
  | .startHigh => Sys2Proof.Machine.execStartHigh s
  | .hsWaitRel => Sys2Proof.Machine.execHsWaitRel s
  | .hsWaitAckl => Sys2Proof.Machine.execHsWaitAckl s
  | .hsWaitAckh => Sys2Proof.Machine.execHsWaitAckh s
  | .bitGap => Sys2Proof.Machine.execBitGap s
  | .bitHigh => Sys2Proof.Machine.execBitHigh s
  | .check => Sys2Proof.Machine.execCheck s

end Sys2Proof.Machine
end

