-- ==== Sys2Proof/Machine/Step.lean ====
section
/-! DEFINITION. One rising edge of `clk` (00_scope.md R8), and the placing of an operation where the next edge performs
it. -/

namespace Sys2Proof.Machine

/-- One edge, in the priority of 60_exceptions.md R144: `rst` over everything (R160), else the operation `st` selects
(30_encoding.md R55), `RESERVED` where the code is reserved (R57). A parameter set outside R10 and R11 has no behaviour
(93_implementation_defined.md U8). -/
def step (s : State) : Host.Outcome State Fault Refusal :=
  if s.params.ok then
    if s.pins.rst then .next s.resetEdge
    else
      match decode s.fetchCode with
      | .ok i => exec i s
      | .error _ => execReserved s
  else .refused .parametersOutOfRange

/-- `s` with the code of a table word in `st`, which is where the next edge takes its operation from, and the next edge
one with `rst` = 0, since an edge with `rst` = 1 performs no operation (R55, R160). If the queue of inputs is empty its
entry has to be made, with the other pins at the held levels, or at those of `Inputs.quiet` where none are held
(notes/assumptions/8.md). -/
def State.withFetchWord (s : State) (nbits w : Nat) : State :=
  { s with
    st := tableWordCode nbits w
    inputs :=
      match s.inputs with
      | [] => [{ s.held.getD Inputs.quiet with rst := false }]
      | x :: later => { x with rst := false } :: later }

end Sys2Proof.Machine
end

