-- ==== Sys2Proof/Machine/Outputs.lean ====
section
/-! DEFINITION. The output ports (10_state.md R14): functions of the registers alone. The line driver (R15), `busy`
(R16), the gated data outputs (42_frame_checksum.md R123), the converter (R127, R129), and what a finished cycle hands to
the Reading Sink (R124). -/

namespace Sys2Proof.Machine

/-- What the block does to the line (30_encoding.md R65): the three values the line driver code takes. -/
inductive LineDrive where
  | driveLow
  | driveHigh
  | released
  deriving DecidableEq, Repr

/-- `line_oe` of a line driver code (R65). -/
def LineDrive.oe : LineDrive → Bool
  | .driveLow => true
  | .driveHigh => true
  | .released => false

/-- `line_out` of a line driver code (R65); 1 while the line is released (R15). -/
def LineDrive.out : LineDrive → Bool
  | .driveLow => false
  | .driveHigh => true
  | .released => true

/-- The line outputs are a function of `st` alone (R15): `START_LOW` drives low, `START_HIGH` drives high, every other
state and every reserved code releases the line. -/
def lineDrive (st : StCode) : LineDrive :=
  if st = encode .startLow then .driveLow
  else if st = encode .startHigh then .driveHigh
  else .released

/-- `line_oe`. -/
def State.lineOe (s : State) : Bool := (lineDrive s.st).oe

/-- `line_out`. -/
def State.lineOut (s : State) : Bool := (lineDrive s.st).out

/-- `busy` (R16). -/
def State.busy (s : State) : Bool := busyOf s.st

/-- A byte field as the data outputs show it: 0 unless `valid` = 1 (R123). -/
def State.gated (field : Frame → Byte) (s : State) : Byte :=
  if s.valid then field s.sr else 0#8

/-- `hum_int` (R123). -/
def State.humInt (s : State) : Byte := s.gated humidityInt

/-- `hum_frac` (R123). -/
def State.humFrac (s : State) : Byte := s.gated humidityFrac

/-- `temp_int` (R123). -/
def State.tempInt (s : State) : Byte := s.gated temperatureInt

/-- `temp_frac` (R123). -/
def State.tempFrac (s : State) : Byte := s.gated temperatureFrac

/-- The converter in tenths, 12 bits wide: 10·int + frac (R129). -/
def tenths (whole frac : Byte) : Tenths :=
  10#12 * whole.setWidth 12 + frac.setWidth 12

/-- `temp_x10` (R129), of the gated outputs. -/
def State.tempX10 (s : State) : Tenths := tenths s.tempInt s.tempFrac

/-- `hum_x10` (R129), of the gated outputs. -/
def State.humX10 (s : State) : Tenths := tenths s.humInt s.humFrac

/-- `toTemperature` and `toHumidity` as the exact rule over the rationals (R127, R128): int + frac/10, both unsigned, a
fractional byte of 10 or more neither rejected nor reduced. The float is made outside the block (R130). -/
def toReading (whole frac : Byte) : Rat :=
  (whole.toNat : Rat) + (frac.toNat : Rat) / 10

/-- All output ports of R14. -/
structure Outputs where
  lineOe      : Bool
  lineOut     : Bool
  busy        : Bool
  done        : Bool
  valid       : Bool
  err         : ErrCode
  humInt      : Byte
  humFrac     : Byte
  tempInt     : Byte
  tempFrac    : Byte
  tempX10     : Tenths
  humX10      : Tenths
  diagBitStb  : Bool
  diagGap     : Nat
  diagWidth   : Nat
  diagBit     : Bool
  diagBitTo   : Bool
  diagByteStb : Bool
  diagByte    : Byte
  diagByteIdx : BitVec 3
  deriving DecidableEq, Repr

/-- The output ports in the period that follows an edge (R14): the registers brought out unchanged, and the
combinational ones. -/
def State.outputs (s : State) : Outputs where
  lineOe      := s.lineOe
  lineOut     := s.lineOut
  busy        := s.busy
  done        := s.done
  valid       := s.valid
  err         := s.err
  humInt      := s.humInt
  humFrac     := s.humFrac
  tempInt     := s.tempInt
  tempFrac    := s.tempFrac
  tempX10     := s.tempX10
  humX10      := s.humX10
  diagBitStb  := s.diagBitStb
  diagGap     := s.diagGap
  diagWidth   := s.diagWidth
  diagBit     := s.diagBit
  diagBitTo   := s.diagBitTo
  diagByteStb := s.diagByteStb
  diagByte    := s.diagByte
  diagByteIdx := s.diagByteIdx

/-- What the period after an edge hands to the Reading Sink (R124): a Reading, the failure outcome with its cause and no
numeric payload (60_exceptions.md R140), or nothing. -/
inductive SinkEvent where
  | none
  | reading (temperature humidity : Rat)
  | readFailed (cause : ErrCode)
  deriving DecidableEq, Repr

/-- The Reading Sink's strobe is `done` with `valid`; `done` without it is "sensor read failed" (R124, R172). -/
def State.sinkEvent (s : State) : SinkEvent :=
  if s.done then
    if s.valid then .reading (toReading s.tempInt s.tempFrac) (toReading s.humInt s.humFrac)
    else .readFailed s.err
  else .none

end Sys2Proof.Machine
end

