-- ==== Sys2Proof/Machine/Waveform.lean ====
section
/-! DEFINITION. The waveform notation (30_encoding.md R70, R71) and the composite operations (R68): how the line's
inputs are written down, and which operations the document's software contracts expand to. -/

namespace Sys2Proof.Machine

/-- A token `H<n>` or `L<n>` (R70): `n` consecutive samples at one level. -/
inductive Token where
  | high (n : Nat)
  | low (n : Nat)
  deriving DecidableEq, Repr

/-- R70: a token stands for at least one sample. -/
def Token.wf : Token → Bool
  | .high n => decide (1 ≤ n)
  | .low n => decide (1 ≤ n)

/-- The samples of a token, in order. -/
def Token.samples : Token → List Bool
  | .high n => List.replicate n true
  | .low n => List.replicate n false

/-- The samples of a sequence of tokens, first sample first (R70). -/
def waveSamples (wave : List Token) : List Bool :=
  wave.flatMap Token.samples

/-- A last token `H*` or `L*` (R70): its level is held for every later sample. -/
inductive LastToken where
  | highForever
  | lowForever
  deriving DecidableEq, Repr

/-- The level a last token holds. -/
def LastToken.level : LastToken → Bool
  | .highForever => true
  | .lowForever => false

/-- A waveform (R70): tokens `H<n>` and `L<n>`, and possibly a last token `H*` or `L*`. -/
structure Waveform where
  tokens : List Token
  last   : Option LastToken
  deriving DecidableEq, Repr

/-- Every token stands for at least one sample (R70). -/
def Waveform.wf (w : Waveform) : Bool :=
  w.tokens.all Token.wf

/-- The level held after the tokens, if there is one. -/
def Waveform.heldLevel (w : Waveform) : Option Bool :=
  w.last.map LastToken.level

/-- Sample `j` of a waveform, counted from 0 (R70): the sample the tokens give, after them the held level, and none where
the waveform has ended. -/
def Waveform.sample (w : Waveform) (j : Nat) : Option Bool :=
  (waveSamples w.tokens)[j]?.or w.heldLevel

/-- The pin levels of one sample, with no reset, no request and the given `diag_en`. -/
def linePins (diagEn level : Bool) : Inputs where
  rst    := false
  start  := false
  lineIn := level
  diagEn := diagEn

/-- The pin levels of a run of samples. -/
def lineInputs (diagEn : Bool) (samples : List Bool) : List Inputs :=
  samples.map (linePins diagEn)

/-- A waveform put on the line behind the pin levels `before`: the samples of its tokens at the edges after those, and its
last token, if it has one, at every later edge (R70; notes/assumptions/15.md). -/
def Waveform.placeAfter (w : Waveform) (before : List Inputs) (diagEn : Bool) (s : State) : State :=
  { s with
    inputs := before ++ lineInputs diagEn (waveSamples w.tokens)
    held := w.heldLevel.map (linePins diagEn) }

/-- The bits of a byte in order of arrival, most significant first (20_memory.md R43). -/
def arrivalBits (v : Byte) : List Bool :=
  (List.finRange 8).map (byteBits v)

/-- `FRAME(B0 B1 B2 B3 B4; g, z, o)` (R71): a pair `L<g> H<w>` for each bit, `w` = `z` for 0 and `o` for 1. -/
def frameWave (bytes : List Byte) (g z o : Nat) : List Token :=
  (bytes.flatMap arrivalBits).flatMap fun b => [.low g, .high (if b then o else z)]

/-- `FRAME` with the lengths R71 gives where none are stated. -/
def frameWaveDefault (bytes : List Byte) : List Token :=
  frameWave bytes 200 108 280

/-- The document's software contracts (R68). -/
inductive Contract where
  | performHandshake
  | readBit
  | readByte
  | assemble
  | isValid
  | toTemperature
  | toHumidity
  | readCycle
  deriving DecidableEq, Repr

/-- The operations a contract visits, in order, each visit once (R68); `assemble`, `toTemperature` and `toHumidity`
have no operation of their own. -/
def Contract.expansion : Contract → List Instr
  | .performHandshake => [.startLow, .startHigh, .hsWaitRel, .hsWaitAckl, .hsWaitAckh]
  | .readBit => [.bitGap, .bitHigh]
  | .readByte => (List.replicate 8 [Instr.bitGap, Instr.bitHigh]).flatten
  | .assemble => []
  | .isValid => [.check]
  | .toTemperature => []
  | .toHumidity => []
  | .readCycle =>
    [.idle, .startLow, .startHigh, .hsWaitRel, .hsWaitAckl, .hsWaitAckh]
      ++ (List.replicate 40 [Instr.bitGap, Instr.bitHigh]).flatten ++ [.check]

end Sys2Proof.Machine
end

