-- ==== Sys2Proof/Safety.lean ====
section
/-! DEFINITION. The terms the statements are written in: runs of edges, what every edge does by itself, what a completed
bit leaves, and the invariant that rules out the states no run reaches. -/

namespace Sys2Proof.Machine

/-- `k` edges of the machine, stopping where a step stops (`Host.Core.run` of the core, written over this machine's own
types). -/
def runEdges : Nat → State → Host.Outcome State Fault Refusal
  | 0, s => .next s
  | k + 1, s =>
    match step s with
    | .next t => runEdges k t
    | .fault r => .fault r
    | .refused r => .refused r

/-- No entry resets the block. -/
def noReset (xs : List Inputs) : Prop :=
  ∀ x ∈ xs, x.rst = false

/-- The samples of a list of pin levels, in order. -/
def lineOf (xs : List Inputs) : List Bool :=
  xs.map Inputs.lineIn

/-- What an edge with `rst` = 0 leaves of `s` when the operation assigns nothing (00_scope.md R12, 10_state.md R29): the
three pulse registers are 0 and everything else is kept; the model's queue gives up one entry and its edge count
advances (notes/assumptions/1.md, 2.md). A statement `exec i s = .next { s.edgeFrame with … }` names every register the
operation writes. -/
def State.edgeFrame (s : State) : State :=
  { s with
    done := false
    diagBitStb := false
    diagByteStb := false
    inputs := s.inputs.tail
    edge := s.edge + 1 }

/-- The state after an edge that completes a bit (41_bit_decoder.md R102, R106, R107), written out apart from the
model's own operations: `b` the bit recorded, `timedOut` the timeout mark, `w` the width reported, `n` the value both
counters restart from. -/
def State.afterBit (b timedOut : Bool) (w n : Nat) (s : State) : State :=
  let lastOfByte := decide (s.bitcnt.toNat % 8 = 7)
  { s.edgeFrame with
    sr := s.sr <<< 1 ||| (BitVec.ofBool b).setWidth 40
    bitcnt := BitVec.ofNat 6 (s.bitcnt.toNat + 1)
    st := if s.bitcnt = 39#6 then 8#4 else 6#4
    tmr := n
    iter := n
    toSeen := s.toSeen || timedOut
    diagGap := s.gapLat
    diagWidth := w
    diagBit := b
    diagBitTo := timedOut
    diagBitStb := s.pins.diagEn
    diagByte := if lastOfByte then (s.sr <<< 1 ||| (BitVec.ofBool b).setWidth 40).setWidth 8 else s.diagByte
    diagByteIdx := if lastOfByte then BitVec.ofNat 3 (s.bitcnt.toNat / 8) else s.diagByteIdx
    diagByteStb := lastOfByte && s.pins.diagEn }

/-- The pin levels with `diag_en` at 0. -/
def withoutDiagEn (x : Inputs) : Inputs :=
  { x with diagEn := false }

/-- `s` with everything `diag_en` may touch set to one value: the two strobes, and `diag_en` itself in the queue of
inputs and in the held levels (41_bit_decoder.md R108). Two states with the same image agree on every other register. -/
def State.eraseDiagEn (s : State) : State :=
  { s with
    diagBitStb := false
    diagByteStb := false
    inputs := s.inputs.map withoutDiagEn
    held := s.held.map withoutDiagEn }

/-- `s` with the diagnostics group of 10_state.md R30 and the two strobes set to 0. -/
def State.eraseDiagnostics (s : State) : State :=
  { s with
    diagBitStb := false
    diagGap := 0
    diagWidth := 0
    diagBit := false
    diagBitTo := false
    diagByteStb := false
    diagByte := 0#8
    diagByteIdx := 0#3 }

/-- Every register of 10_state.md R17 at the value of its "reset" column. -/
def State.registersReset (s : State) : Prop :=
  s.st = 0#4 ∧ s.bitcnt = 0#6 ∧ s.sr = 0#40 ∧ s.tmr = 0 ∧ s.iter = 0 ∧ s.toSeen = false ∧ s.gapLat = 0 ∧
  s.valid = false ∧ s.err = 0#2 ∧ s.done = false ∧ s.diagBitStb = false ∧ s.diagGap = 0 ∧ s.diagWidth = 0 ∧
  s.diagBit = false ∧ s.diagBitTo = false ∧ s.diagByteStb = false ∧ s.diagByte = 0#8 ∧ s.diagByteIdx = 0#3

/-- The reset state of a block with parameters `p` whose coming inputs are `xs` and then, if given, the levels `h` at
every later edge (R170: the parameters are chosen before the first reset and then static). -/
def State.resetWith (p : Params) (xs : List Inputs) (h : Option Inputs) : State :=
  { State.reset with params := p, inputs := xs, held := h }

/-- A handshake wait (40_handshake.md R80, R81, R82): its operation, its code, its waiting level, its successor's code. -/
structure HandshakePhase where
  op    : Instr
  code  : StCode
  level : Bool
  next  : StCode
  deriving DecidableEq, Repr

/-- The three handshake waits. -/
def handshakePhases : List HandshakePhase :=
  [{ op := .hsWaitRel, code := 3#4, level := true, next := 4#4 },
   { op := .hsWaitAckl, code := 4#4, level := false, next := 5#4 },
   { op := .hsWaitAckh, code := 5#4, level := true, next := 6#4 }]

/-- The six data outputs (42_frame_checksum.md R123, R129). -/
def State.dataOutputs (s : State) : Byte × Byte × Byte × Byte × Tenths × Tenths :=
  (s.humInt, s.humFrac, s.tempInt, s.tempFrac, s.tempX10, s.humX10)

/-- The sequencer, the frame and the result: the registers that do not depend on the widths of the counters
(00_scope.md R11). -/
def State.control (s : State) : StCode × BitCount × Frame × Bool × Bool × ErrCode × Bool :=
  (s.st, s.bitcnt, s.sr, s.toSeen, s.valid, s.err, s.done)

/-- The registers of a result that the sink may trust (10_state.md R27, 42_frame_checksum.md R121): the sum of the four
data bytes agrees with the checksum byte modulo 256, no bit of the cycle timed out, all forty bits were recorded, and
there is no error. -/
def State.SoundResult (s : State) : Prop :=
  ((s.sr.toNat / 2 ^ 32) % 256 + (s.sr.toNat / 2 ^ 24) % 256 + (s.sr.toNat / 2 ^ 16) % 256
    + (s.sr.toNat / 2 ^ 8) % 256) % 256 = s.sr.toNat % 256 ∧
  s.toSeen = false ∧ s.bitcnt = 40#6 ∧ s.err = 0#2

/-- One count `n`, kept in two counters that saturate at `maxA` and at `maxB` (00_scope.md R12). -/
def sameCount (a maxA b maxB : Nat) : Prop :=
  ∃ n, a = min n maxA ∧ b = min n maxB

/-- Two blocks that differ in the widths of their counters alone (00_scope.md R10, R11): the parameters agree but for
`TMR_W` and `ITER_W`, every register whose width is fixed and every input agrees, and each register as wide as a counter
holds one count, saturated at the block's own maximum. -/
structure State.Lockstep (s u : State) : Prop where
  params : ∃ tw iw, u.params = { s.params with tmrW := tw, iterW := iw }
  control : u.control = s.control
  bitRecord : u.diagBitStb = s.diagBitStb ∧ u.diagBit = s.diagBit ∧ u.diagBitTo = s.diagBitTo
  byteRecord : u.diagByteStb = s.diagByteStb ∧ u.diagByte = s.diagByte ∧ u.diagByteIdx = s.diagByteIdx
  inputs : u.inputs = s.inputs
  held : u.held = s.held
  edge : u.edge = s.edge
  tmr : sameCount s.tmr s.params.tmrMax u.tmr u.params.tmrMax
  iter : sameCount s.iter s.params.iterMax u.iter u.params.iterMax
  gapLat : sameCount s.gapLat s.params.tmrMax u.gapLat u.params.tmrMax
  diagGap : sameCount s.diagGap s.params.tmrMax u.diagGap u.params.tmrMax
  diagWidth : sameCount s.diagWidth s.params.tmrMax u.diagWidth u.params.tmrMax

/-- The invariant of every run from reset: what the spec says of the registers beyond their widths. Each field names its
rule. -/
structure State.Inv (s : State) : Prop where
  /-- 00_scope.md R10, R11. -/
  paramsOk : s.params.ok = true
  /-- R18: one of the nine codes; 9 to 15 are unreachable. -/
  legalCode : s.st.toNat ≤ 8
  /-- R19: never more than 40 bits. -/
  bitcntMax : s.bitcnt.toNat ≤ 40
  /-- R20: `sr` holds the bits recorded so far and zeros above them. -/
  frameFilled : s.sr.toNat < 2 ^ s.bitcnt.toNat
  /-- R10, R22. -/
  tmrFits : s.tmr ≤ s.params.tmrMax
  /-- R10, R23. -/
  iterFits : s.iter ≤ s.params.iterMax
  /-- R26. -/
  gapFits : s.gapLat ≤ s.params.tmrMax
  /-- R10 (`TMR_W` is the width of the diagnostic timing outputs). -/
  diagGapFits : s.diagGap ≤ s.params.tmrMax
  /-- R10. -/
  diagWidthFits : s.diagWidth ≤ s.params.tmrMax
  /-- 40_handshake.md R82: no bit is recorded before the data phase. -/
  beforeData : 1 ≤ s.st.toNat → s.st.toNat ≤ 5 → s.bitcnt = 0#6 ∧ s.sr = 0#40 ∧ s.toSeen = false
  /-- 41_bit_decoder.md R102: a bit is still missing in the data phase. -/
  inData : s.st = 6#4 ∨ s.st = 7#4 → s.bitcnt.toNat < 40
  /-- 42_frame_checksum.md R131: `CHECK` sees a whole frame. -/
  atCheck : s.st = 8#4 → s.bitcnt = 40#6
  /-- R27, R28, R29: during a cycle there is no result and no `done`. -/
  noResultWhileBusy : s.st ≠ 0#4 → s.valid = false ∧ s.err = 0#2 ∧ s.done = false
  /-- 40_handshake.md R77. -/
  startLowCount : s.st = 1#4 → s.tmr < s.params.startLowTicks
  /-- 40_handshake.md R78. -/
  startHighCount : s.st = 2#4 → s.tmr < s.params.startHighTicks
  /-- 40_handshake.md R83: a handshake wait never counts beyond its cap. -/
  capCount : 3 ≤ s.st.toNat → s.st.toNat ≤ 5 → ∀ c, s.params.hsWaitCap = some c → s.iter ≤ c
  /-- 41_bit_decoder.md R99: in `BIT_HIGH` neither counter is saturated and both count the pulse. -/
  pulseCount : s.st = 7#4 → s.tmr = s.iter ∧ 1 ≤ s.iter ∧ s.iter ≤ s.params.bitCeil
  /-- R24: in a wait state `tmr` = `iter` before saturation. -/
  oneCount : 3 ≤ s.st.toNat → s.st.toNat ≤ 7 →
    s.tmr = s.iter ∨ s.tmr = s.params.tmrMax ∨ s.iter = s.params.iterMax
  /-- R27, 42_frame_checksum.md R121. -/
  validSound : s.valid = true →
    s.err = 0#2 ∧ checksumOk s.params s.sr = true ∧ s.toSeen = false ∧ s.bitcnt = 40#6
  /-- 60_exceptions.md R136, 40_handshake.md R83. -/
  handshakeCode : s.err = 1#2 → s.bitcnt = 0#6 ∧ s.sr = 0#40 ∧ ∃ c, s.params.hsWaitCap = some c
  /-- 60_exceptions.md R137. -/
  timeoutCode : s.err = 2#2 → s.toSeen = true ∧ s.bitcnt = 40#6
  /-- 60_exceptions.md R139. -/
  checksumCode : s.err = 3#2 →
    checksumOk s.params s.sr = false ∧ s.toSeen = false ∧ s.bitcnt = 40#6
  /-- R28, R29, 60_exceptions.md R135. -/
  doneIdle : s.done = true → s.st = 0#4 ∧ (s.valid = true ↔ s.err = 0#2)
  /-- 41_bit_decoder.md R102: a byte strobe comes with the strobe of its last bit. -/
  byteStrobe : s.diagByteStb = true → s.diagBitStb = true
  /-- R14: a byte index is 0..4. -/
  byteIdxMax : s.diagByteIdx.toNat ≤ 4

end Sys2Proof.Machine
end

