-- ==== Sys2Proof/Certificates/Slice0/Obligations.lean ====
section
/-! DEFINITION. The statements for the provers. Each docstring names the rules of spec/ it formalises. Where a statement
gives the whole next state as `{ s.edgeFrame with … }`, everything it does not name is unchanged: that is its frame. The
model's own bookkeeping stands in it beside the registers: the queue of inputs gives up one entry at an edge and the edge
count advances (notes/assumptions/1.md, 2.md), the parameters are kept (3.md), and `params.ok` as a premise leaves out the
sets the step refuses (4.md). No rule of spec/ is cited for these. -/

open Sys2Proof Sys2Proof.Machine

/-! ### The code map -/

/-- 30_encoding.md R56, R57 and spec/opcode_table.json: each 4-bit pattern of the table decodes to its operation; a
reserved pattern decodes to none. That a table word of 8 bits is read through its low four is the model's choice
(notes/assumptions/9.md). -/
def Obligations.CodeMapIsTheSpecTable : Prop :=
  decode 0b0000#4 = .ok .idle ∧ decode 0b0001#4 = .ok .startLow ∧ decode 0b0010#4 = .ok .startHigh ∧
  decode 0b0011#4 = .ok .hsWaitRel ∧ decode 0b0100#4 = .ok .hsWaitAckl ∧ decode 0b0101#4 = .ok .hsWaitAckh ∧
  decode 0b0110#4 = .ok .bitGap ∧ decode 0b0111#4 = .ok .bitHigh ∧ decode 0b1000#4 = .ok .check ∧
  decodeTableWord 8 0x8 = some .check ∧ decode 0b1001#4 = .error (.reservedCode 0b1001#4) ∧
  decodeTableWord 8 0xF = none

/-- R55, R56, R57: a code decodes to an operation exactly when it is that operation's code, every operation is well
formed, and the codes from 9 on are rejected by name. The clause on table words rests on the model's choice
notes/assumptions/9.md, the rejection by name on 6.md. -/
def Obligations.DecodeAndEncodeAgree : Prop :=
  (∀ (c : StCode) (i : Instr), decode c = .ok i ↔ c = encode i) ∧
  (∀ i : Instr, i.wf = true ∧ decodeTableWord 8 (encode i).toNat = some i) ∧
  (∀ c : StCode, 9 ≤ c.toNat → decode c = .error (.reservedCode c))

/-! ### Reset -/

/-- 70_reset_and_hazards.md R160. The premise on the parameters is the model's (U8 refuses any other set). -/
def Obligations.ResetEdgeClearsEveryRegister : Prop :=
  State.reset.registersReset ∧
  ∀ s : State, s.params.ok = true → s.pins.rst = true →
    ∃ t, step s = .next t ∧ t.registersReset

/-- 70_reset_and_hazards.md R161, for every state after a reset edge. -/
def Obligations.OutputsAfterReset : Prop :=
  ∀ s : State, s.params.ok = true → s.pins.rst = true →
    ∃ t, step s = .next t ∧ t.lineOe = false ∧ t.lineOut = true ∧ t.busy = false ∧ t.done = false ∧
      t.valid = false ∧ t.err = 0#2 ∧ t.humInt = 0#8 ∧ t.humFrac = 0#8 ∧ t.tempInt = 0#8 ∧ t.tempFrac = 0#8 ∧
      t.tempX10 = 0#12 ∧ t.humX10 = 0#12 ∧ t.diagBitStb = false ∧ t.diagGap = 0 ∧ t.diagWidth = 0 ∧
      t.diagBit = false ∧ t.diagBitTo = false ∧ t.diagByteStb = false ∧ t.diagByte = 0#8 ∧ t.diagByteIdx = 0#3

/-- 70_reset_and_hazards.md R164: `rst` wins over `start` at the same edge, and a request at the first edge after a
reset edge is accepted there. -/
def Obligations.ResetBeatsStart : Prop :=
  ∀ (s : State) (x y : Inputs) (rest : List Inputs), s.params.ok = true → s.inputs = x :: y :: rest →
    x.rst = true →
    (∃ t, runEdges 1 s = .next t ∧ t.st = 0#4 ∧ t.busy = false ∧
      (y.rst = false → y.start = false → ∃ u, step t = .next u ∧ u.st = 0#4) ∧
      (y.rst = false → y.start = true → ∃ u, step t = .next u ∧ u.st = 1#4))

/-! ### The step -/

/-- 30_encoding.md R55: at an edge with `rst` = 0 the operation `st` selects is performed. The step adds nothing around
`exec`: there is no program counter to advance. -/
def Obligations.StepPerformsTheSelectedOperation : Prop :=
  ∀ (s : State) (i : Instr), s.params.ok = true → s.pins.rst = false → decode s.st = .ok i → step s = exec i s

/-- 40_handshake.md R87: a reserved code goes to `IDLE` in one edge, `done` stays 0 and no other register is assigned;
while it lasts the line is released and `busy` is 1. -/
def Obligations.ReservedCodeReturnsToIdle : Prop :=
  ∀ s : State, s.params.ok = true → s.pins.rst = false → 9 ≤ s.st.toNat →
    step s = .next { s.edgeFrame with st := 0#4 } ∧ s.lineOe = false ∧ s.busy = true

/-- 93_implementation_defined.md U8, with the constraints of 00_scope.md R10 and R11 written out: a set that breaks one
has no behaviour, in any state. That the step refuses it is the model's reading (notes/assumptions/4.md). -/
def Obligations.ParametersOutOfRangeAreRefused : Prop :=
  ∀ s : State,
    ¬ (1 ≤ s.params.startLowTicks ∧ s.params.startLowTicks ≤ 2 ^ s.params.tmrW - 1 ∧
       1 ≤ s.params.startHighTicks ∧ s.params.startHighTicks ≤ 2 ^ s.params.tmrW - 1 ∧
       1 ≤ s.params.thresholdTicks ∧ s.params.thresholdTicks ≤ s.params.bitCeil ∧
       s.params.bitCeil ≤ 2 ^ s.params.iterW - 1 ∧ s.params.bitCeil + 1 ≤ 2 ^ s.params.tmrW - 1 ∧
       ∀ c, s.params.hsWaitCap = some c → 1 ≤ c ∧ c ≤ 2 ^ s.params.iterW - 1) ↔
    step s = .refused .parametersOutOfRange

/-- 60_exceptions.md R157 and 70_reset_and_hazards.md R170: with parameters in range every edge, in every state and under
every input, has a next state (a hang is an infinite execution, never a stop), and no edge changes a parameter. The clauses on the queue, the held levels and the edge count are the model's
(notes/assumptions/1.md, 2.md, 15.md). -/
def Obligations.EveryEdgeHasANextState : Prop :=
  ∀ s : State, s.params.ok = true →
    ∃ t, step s = .next t ∧ t.params = s.params ∧ t.inputs = s.inputs.tail ∧ t.held = s.held ∧ t.edge = s.edge + 1

/-! ### The operations of 40_handshake.md -/

/-- 40_handshake.md R75. -/
def Obligations.IdleWithoutStartKeepsEverything : Prop :=
  ∀ s : State, s.pins.start = false → exec .idle s = .next s.edgeFrame

/-- 40_handshake.md R76: the acceptance, with the diagnostics registers kept (d); and (b), no other operation looks at
`start`. -/
def Obligations.IdleAcceptsStart : Prop :=
  (∀ s : State, s.pins.start = true →
    exec .idle s = .next { s.edgeFrame with
      st := 1#4, tmr := 0, iter := 0, sr := 0#40, bitcnt := 0#6, toSeen := false, gapLat := 0,
      valid := false, err := 0#2 }) ∧
  (∀ (i : Instr) (s : State) (x : Inputs) (rest : List Inputs) (v : Bool), i ≠ .idle →
    exec i { s with inputs := x :: rest } = exec i { s with inputs := { x with start := v } :: rest })

/-- 40_handshake.md R77: the pseudocode, and the state held for exactly `START_LOW_TICKS` periods with the line driven
low. -/
def Obligations.StartLowDrivesLowForItsTicks : Prop :=
  (∀ s : State, s.params.startLowTicks - 1 ≤ s.tmr →
    exec .startLow s = .next { s.edgeFrame with st := 2#4, tmr := 0 }) ∧
  (∀ s : State, s.tmr < s.params.startLowTicks - 1 →
    exec .startLow s = .next { s.edgeFrame with tmr := min (s.tmr + 1) (2 ^ s.params.tmrW - 1) }) ∧
  (∀ (s : State) (xs rest : List Inputs), s.params.ok = true → s.st = 1#4 → s.tmr = 0 → noReset xs →
    xs.length = s.params.startLowTicks → s.inputs = xs ++ rest →
    (∀ k, k < s.params.startLowTicks →
      ∃ t, runEdges k s = .next t ∧ t.st = 1#4 ∧ t.lineOe = true ∧ t.lineOut = false) ∧
    ∃ t, runEdges s.params.startLowTicks s = .next t ∧ t.st = 2#4 ∧ t.tmr = 0 ∧ t.inputs = rest)

/-- 40_handshake.md R78: the pseudocode, and the state held for exactly `START_HIGH_TICKS` periods with the line driven
high, released in the period in which the first wait begins. -/
def Obligations.StartHighDrivesHighForItsTicks : Prop :=
  (∀ s : State, s.params.startHighTicks - 1 ≤ s.tmr →
    exec .startHigh s = .next { s.edgeFrame with st := 3#4, tmr := 0, iter := 0 }) ∧
  (∀ s : State, s.tmr < s.params.startHighTicks - 1 →
    exec .startHigh s = .next { s.edgeFrame with tmr := min (s.tmr + 1) (2 ^ s.params.tmrW - 1) }) ∧
  (∀ (s : State) (xs rest : List Inputs), s.params.ok = true → s.st = 2#4 → s.tmr = 0 → noReset xs →
    xs.length = s.params.startHighTicks → s.inputs = xs ++ rest →
    (∀ k, k < s.params.startHighTicks →
      ∃ t, runEdges k s = .next t ∧ t.st = 2#4 ∧ t.lineOe = true ∧ t.lineOut = true) ∧
    ∃ t, runEdges s.params.startHighTicks s = .next t ∧ t.st = 3#4 ∧ t.tmr = 0 ∧ t.iter = 0 ∧
      t.lineOe = false ∧ t.inputs = rest)

/-- 40_handshake.md R79 to R83, the pseudocode of the three handshake waits: a level change leaves the state with the
sample counted as the first of the next wait; at the cap the abort of R83; otherwise the sample is counted. -/
def Obligations.HandshakeWaitTakesOneEdge : Prop :=
  ∀ ph ∈ handshakePhases, ∀ s : State,
    (s.pins.lineIn ≠ ph.level →
      exec ph.op s = .next { s.edgeFrame with st := ph.next, tmr := 1, iter := 1 }) ∧
    (s.pins.lineIn = ph.level → (∃ c, s.params.hsWaitCap = some c ∧ c ≤ s.iter) →
      exec ph.op s = .next { s.edgeFrame with valid := false, err := 1#2, done := true, st := 0#4 }) ∧
    (s.pins.lineIn = ph.level → (∀ c, s.params.hsWaitCap = some c → s.iter < c) →
      exec ph.op s = .next { s.edgeFrame with
        tmr := min (s.tmr + 1) (2 ^ s.params.tmrW - 1), iter := min (s.iter + 1) (2 ^ s.params.iterW - 1) })

/-- 40_handshake.md R84: without a cap a handshake wait is held as long as the line stays at its waiting level, whatever
`start` and `diag_en` are; both counters saturate, `busy` stays 1, `done` never rises, and an edge with `rst` = 1 ends
it. -/
def Obligations.HandshakeHangsWithoutCap : Prop :=
  ∀ ph ∈ handshakePhases, ∀ (s : State) (xs rest : List Inputs), s.Inv → s.st = ph.code →
    s.params.hsWaitCap = none → noReset xs → (∀ x ∈ xs, x.lineIn = ph.level) → s.inputs = xs ++ rest →
    ∃ t, runEdges xs.length s = .next t ∧ t.st = ph.code ∧ t.busy = true ∧ t.done = false ∧
      t.valid = s.valid ∧ t.err = s.err ∧
      t.tmr = min (s.tmr + xs.length) (2 ^ s.params.tmrW - 1) ∧
      t.iter = min (s.iter + xs.length) (2 ^ s.params.iterW - 1) ∧ t.inputs = rest ∧
      (t.pins.rst = true → ∃ u, step t = .next u ∧ u.st = 0#4 ∧ u.busy = false)

/-- 40_handshake.md R83: with the cap `C`, the sample at the waiting level that finds `C` samples counted (the
(C+1)-th) ends the cycle with `ERR_HANDSHAKE`; `tmr` and `iter` keep their values, the frame is empty, the line is
released. No other edge of any configuration sets this code; in particular none does without a cap. -/
def Obligations.HandshakeAbortsAtTheCap : Prop :=
  (∀ ph ∈ handshakePhases, ∀ (s : State) (c : Nat) (xs : List Inputs) (x : Inputs) (rest : List Inputs), s.Inv →
    s.st = ph.code → s.params.hsWaitCap = some c → noReset (xs ++ [x]) →
    (∀ y ∈ xs ++ [x], y.lineIn = ph.level) → s.iter + xs.length = c → s.inputs = xs ++ x :: rest →
    ∃ t u, runEdges xs.length s = .next t ∧ t.st = ph.code ∧ t.iter = c ∧ t.done = false ∧
      step t = .next u ∧ u.valid = false ∧ u.err = 1#2 ∧ u.done = true ∧ u.st = 0#4 ∧ u.tmr = t.tmr ∧ u.iter = c ∧
      u.sr = 0#40 ∧ u.bitcnt = 0#6 ∧ u.lineOe = false) ∧
  (∀ s t : State, s.err ≠ 1#2 → step s = .next t → t.err = 1#2 →
    (∃ c, s.params.hsWaitCap = some c ∧ c ≤ s.iter) ∧
    ∃ ph ∈ handshakePhases, s.st = ph.code ∧ s.pins.lineIn = ph.level)

/-! ### The operations of 41_bit_decoder.md -/

/-- 41_bit_decoder.md R96, R97: a low sample is counted, at any value of the counters and under any cap; a high one
latches the gap and is the first sample of the pulse. -/
def Obligations.BitGapCountsLowAndLeavesOnHigh : Prop :=
  ∀ s : State,
    (s.pins.lineIn = false →
      exec .bitGap s = .next { s.edgeFrame with
        tmr := min (s.tmr + 1) (2 ^ s.params.tmrW - 1), iter := min (s.iter + 1) (2 ^ s.params.iterW - 1) }) ∧
    (s.pins.lineIn = true →
      exec .bitGap s = .next { s.edgeFrame with st := 7#4, gapLat := s.tmr, tmr := 1, iter := 1 })

/-- 41_bit_decoder.md R98: a line that stays low in the data phase hangs the block in `BIT_GAP`, whatever the cap is;
only `rst` ends it. -/
def Obligations.BitGapHangsOnALowLine : Prop :=
  ∀ (s : State) (xs rest : List Inputs), s.Inv → s.st = 6#4 → noReset xs → (∀ x ∈ xs, x.lineIn = false) →
    s.inputs = xs ++ rest →
    ∃ t, runEdges xs.length s = .next t ∧ t.st = 6#4 ∧ t.busy = true ∧ t.done = false ∧ t.bitcnt = s.bitcnt ∧
      t.sr = s.sr ∧ t.tmr = min (s.tmr + xs.length) (2 ^ s.params.tmrW - 1) ∧ t.inputs = rest ∧
      (t.pins.rst = true → ∃ u, step t = .next u ∧ u.st = 0#4 ∧ u.busy = false)

/-- 41_bit_decoder.md R99; in a visit that the invariant describes neither counter saturates and `iter` stays at most
`BIT_CEIL`. -/
def Obligations.BitHighCountsBelowTheCeiling : Prop :=
  ∀ s : State, s.pins.lineIn = true → s.iter < s.params.bitCeil →
    exec .bitHigh s = .next { s.edgeFrame with
      tmr := min (s.tmr + 1) (2 ^ s.params.tmrW - 1), iter := min (s.iter + 1) (2 ^ s.params.iterW - 1) } ∧
    (s.Inv → s.st = 7#4 →
      exec .bitHigh s = .next { s.edgeFrame with tmr := s.tmr + 1, iter := s.iter + 1 } ∧
      s.iter + 1 ≤ s.params.bitCeil)

/-- 41_bit_decoder.md R100, with R102, R106 and R107 (`State.afterBit` writes out all of `CompleteBit`): a low sample
records the comparator's bit, at any value of `iter`, the ceiling included. -/
def Obligations.BitHighClassifiesAtTheFallingEdge : Prop :=
  ∀ s : State, s.pins.lineIn = false →
    exec .bitHigh s = .next (s.afterBit (decide (s.params.thresholdTicks ≤ s.tmr)) false s.tmr 1)

/-- 41_bit_decoder.md R101, R104: the sample that exceeds the ceiling records 0, whatever the width, marks the cycle and
restarts both counters at 0. -/
def Obligations.BitHighTimesOutAtTheCeiling : Prop :=
  ∀ s : State, s.pins.lineIn = true → s.params.bitCeil ≤ s.iter →
    exec .bitHigh s = .next (s.afterBit false true (min (s.tmr + 1) (2 ^ s.params.tmrW - 1)) 0)

/-! ### The operation and the functions of 42_frame_checksum.md -/

/-- 42_frame_checksum.md R118, with `Sum` and `ChecksumOk` of R119 and R120 written out. -/
def Obligations.CheckGivesTheVerdict : Prop :=
  ∀ s : State,
    let sum := (s.sr.toNat / 2 ^ 32) % 256 + (s.sr.toNat / 2 ^ 24) % 256 + (s.sr.toNat / 2 ^ 16) % 256
      + (s.sr.toNat / 2 ^ 8) % 256
    let ok := if s.params.csumWide then sum = s.sr.toNat % 256 else sum % 256 = s.sr.toNat % 256
    (ok → s.toSeen = false →
      exec .check s = .next { s.edgeFrame with valid := true, err := 0#2, done := true, st := 0#4 }) ∧
    (¬ ok → s.toSeen = false →
      exec .check s = .next { s.edgeFrame with valid := false, err := 3#2, done := true, st := 0#4 }) ∧
    (s.toSeen = true →
      exec .check s = .next { s.edgeFrame with valid := false, err := 2#2, done := true, st := 0#4 })

/-- 41_bit_decoder.md R103. -/
def Obligations.ClassifyIncludesTheThreshold : Prop :=
  (∀ (p : Params) (n : Nat), classify p n = true ↔ p.thresholdTicks ≤ n) ∧
  (∀ p : Params, p.thresholdTicks = 280 →
    classify p 0 = false ∧ classify p 279 = false ∧ classify p 280 = true ∧ classify p 1000 = true)

/-- 42_frame_checksum.md R116 for one byte: eight shifts, whatever the register held, leave `toByteValue` of the eight
bits, which is at most 255. -/
def Obligations.EightShiftsAssembleAByte : Prop :=
  ∀ (b : Fin 8 → Bool) (x : Byte),
    ((List.ofFn b).foldl shiftInByte x).toNat = toByteValue b ∧ toByteValue b ≤ 255

/-- 20_memory.md R43, R44, R45 and 42_frame_checksum.md R115: after forty bits, whatever `sr` held, bit n in order of
arrival is `sr[39-n]`, each byte field is `toByteValue` of its eight bits, and the fields compose to the frame. -/
def Obligations.FortyShiftsAssembleTheFrame : Prop :=
  ∀ (b : Fin 40 → Bool) (x : Frame),
    let f := (List.ofFn b).foldl shiftIn x
    (∀ n : Fin 40, f.getLsbD (39 - n) = b n) ∧
    (humidityInt f).toNat = toByteValue (fun i => b ⟨i, by omega⟩) ∧
    (humidityFrac f).toNat = toByteValue (fun i => b ⟨8 + i, by omega⟩) ∧
    (temperatureInt f).toNat = toByteValue (fun i => b ⟨16 + i, by omega⟩) ∧
    (temperatureFrac f).toNat = toByteValue (fun i => b ⟨24 + i, by omega⟩) ∧
    (checksumByte f).toNat = toByteValue (fun i => b ⟨32 + i, by omega⟩) ∧
    f.toNat = (humidityInt f).toNat * 2 ^ 32 + (humidityFrac f).toNat * 2 ^ 24 + (temperatureInt f).toNat * 2 ^ 16
      + (temperatureFrac f).toNat * 2 ^ 8 + (checksumByte f).toNat

/-- 42_frame_checksum.md R117: both round trips. -/
def Obligations.ByteValueIsABijection : Prop :=
  (∀ v : Byte, toByteValue (byteBits v) = v.toNat) ∧
  (∀ b : Fin 8 → Bool, byteBits (BitVec.ofNat 8 (toByteValue b)) = b)

/-- 42_frame_checksum.md R119, R120: the sum is the numeric sum of the four data bytes and fits 10 bits; the two comparisons; they differ exactly on sums of 256 or
more whose low byte matches, where the wide one is false. -/
def Obligations.ChecksumComparesModulo256 : Prop :=
  ∀ (p : Params) (x : Frame),
    byteSum x = x.toNat / 2 ^ 32 % 256 + x.toNat / 2 ^ 24 % 256 + x.toNat / 2 ^ 16 % 256 + x.toNat / 2 ^ 8 % 256 ∧
    (checksumByte x).toNat = x.toNat % 256 ∧ byteSum x ≤ 1020 ∧
    (p.csumWide = false → (checksumOk p x = true ↔ byteSum x % 256 = (checksumByte x).toNat)) ∧
    (p.csumWide = true → (checksumOk p x = true ↔ byteSum x = (checksumByte x).toNat)) ∧
    (p.csumWide = true → 256 ≤ byteSum x → checksumOk p x = false) ∧
    (byteSum x < 256 → checksumOk { p with csumWide := true } x = checksumOk { p with csumWide := false } x)

/-- 42_frame_checksum.md R122: a single-bit change of a frame that passes always fails, in both settings; in the modulo
setting a change that keeps sum minus checksum modulo 256 is not noticed. -/
def Obligations.SingleBitChangeIsCaught : Prop :=
  (∀ (p : Params) (x : Frame) (i : Nat), i < 40 → checksumOk p x = true →
    checksumOk p (x ^^^ (1#40 <<< i)) = false) ∧
  (∀ (p : Params) (x y : Frame), p.csumWide = false →
    (byteSum x + (256 - (checksumByte x).toNat)) % 256 = (byteSum y + (256 - (checksumByte y).toNat)) % 256 →
    checksumOk p x = checksumOk p y)

/-! ### The outputs -/

/-- 10_state.md R15, R16 (first sentence), 30_encoding.md R65, for every code, reserved ones included; and no state that
samples the line drives it. -/
def Obligations.LineDriverFollowsTheState : Prop :=
  ∀ s : State,
    (s.lineOe = true ↔ s.st = 1#4 ∨ s.st = 2#4) ∧ (s.lineOut = false ↔ s.st = 1#4) ∧
    ¬ (s.lineOe = false ∧ s.lineOut = false) ∧
    (s.busy = true ↔ s.st ≠ 0#4) ∧
    (3 ≤ s.st.toNat → s.st.toNat ≤ 7 → s.lineOe = false)

/-- 42_frame_checksum.md R123, R124: the gating, the outputs at 0 during a cycle, and what the Reading Sink is handed. -/
def Obligations.DataOutputsAreGatedByValid : Prop :=
  ∀ s : State,
    (s.valid = true → s.humInt.toNat = s.sr.toNat / 2 ^ 32 ∧ s.humFrac.toNat = s.sr.toNat / 2 ^ 24 % 256 ∧
      s.tempInt.toNat = s.sr.toNat / 2 ^ 16 % 256 ∧ s.tempFrac.toNat = s.sr.toNat / 2 ^ 8 % 256) ∧
    (s.valid = false → s.humInt = 0#8 ∧ s.humFrac = 0#8 ∧ s.tempInt = 0#8 ∧ s.tempFrac = 0#8 ∧
      s.tempX10 = 0#12 ∧ s.humX10 = 0#12) ∧
    (s.Inv → s.busy = true → s.valid = false ∧ s.dataOutputs = (0#8, 0#8, 0#8, 0#8, 0#12, 0#12)) ∧
    ((∃ a b, s.sinkEvent = .reading a b) ↔ s.done = true ∧ s.valid = true) ∧
    (∀ e, s.sinkEvent = .readFailed e ↔ s.done = true ∧ s.valid = false ∧ s.err = e)

/-- 42_frame_checksum.md R127, R129: the tenths outputs are ten times the exact reading of the gated outputs, never
overflow, are at most 2805, and are 0 when `valid` = 0. -/
def Obligations.ConverterOutputsAreExactTenths : Prop :=
  ∀ s : State,
    s.tempX10.toNat = 10 * s.tempInt.toNat + s.tempFrac.toNat ∧
    s.humX10.toNat = 10 * s.humInt.toNat + s.humFrac.toNat ∧
    s.tempX10.toNat ≤ 2805 ∧ s.humX10.toNat ≤ 2805 ∧ (s.valid = false → s.tempX10 = 0#12 ∧ s.humX10 = 0#12) ∧
    (s.tempX10.toNat : Rat) / 10 = (s.tempInt.toNat : Rat) + (s.tempFrac.toNat : Rat) / 10 ∧
    (s.tempX10.toNat : Rat) = 10 * toReading s.tempInt s.tempFrac ∧
    (s.humX10.toNat : Rat) = 10 * toReading s.humInt s.humFrac

/-! ### The invariant -/

/-- Every register invariant the rules name (`State.Inv`, field by field with its rule) holds at reset, for every
parameter set in range and every future of the inputs. -/
def Obligations.InvariantHoldsAtReset : Prop :=
  State.reset.Inv ∧ ∀ (p : Params) (xs : List Inputs) (h : Option Inputs), p.ok = true → (State.resetWith p xs h).Inv

/-- Every edge keeps the invariant, from every state that has it and under every input. -/
def Obligations.StepKeepsTheInvariant : Prop :=
  ∀ s t : State, s.Inv → step s = .next t → t.Inv

/-- From every state with the invariant the block runs for ever, whatever the inputs are, and keeps it. -/
def Obligations.RunsNeverStopAndKeepTheInvariant : Prop :=
  ∀ (s : State) (k : Nat), s.Inv → ∃ t, runEdges k s = .next t ∧ t.Inv ∧ t.edge = s.edge + k

/-- 10_state.md R27, 42_frame_checksum.md R121 (95_test_vectors.md section 5, property 2): `valid` = 1 after an edge means
that the frame's checksum holds modulo 256, that no bit of its cycle timed out and that all forty bits were recorded; for
every edge from a state with the invariant, and for every run from reset under every parameter set in range and every
input sequence. -/
def Obligations.ValidReadingIsSound : Prop :=
  (∀ s t : State, s.Inv → step s = .next t → t.valid = true → t.SoundResult) ∧
  (∀ (p : Params) (xs : List Inputs) (h : Option Inputs) (k : Nat) (t : State), p.ok = true →
    runEdges k (State.resetWith p xs h) = .next t → t.valid = true → t.SoundResult)

/-! ### Whole-machine rules -/

/-- 10_state.md R18, 40_handshake.md R83, R87, 41_bit_decoder.md R102, 42_frame_checksum.md R118: the only successors a
code has at an edge with `rst` = 0; a handshake wait goes to `IDLE` only under a cap, and `CHECK` is reached only from
`BIT_HIGH` with the fortieth bit. -/
def Obligations.SequencerMovesOnlyAsSpecified : Prop :=
  ∀ s t : State, s.pins.rst = false → step s = .next t →
    (s.st = 0#4 ∧ (t.st = 0#4 ∧ s.pins.start = false ∨ t.st = 1#4 ∧ s.pins.start = true)) ∨
    (s.st = 1#4 ∧ (t.st = 1#4 ∨ t.st = 2#4)) ∨
    (s.st = 2#4 ∧ (t.st = 2#4 ∨ t.st = 3#4)) ∨
    (∃ ph ∈ handshakePhases, s.st = ph.code ∧
      (t.st = ph.code ∧ s.pins.lineIn = ph.level ∨ t.st = ph.next ∧ s.pins.lineIn ≠ ph.level ∨
       t.st = 0#4 ∧ t.err = 1#2 ∧ ∃ c, s.params.hsWaitCap = some c ∧ c ≤ s.iter)) ∨
    (s.st = 6#4 ∧ (t.st = 6#4 ∧ s.pins.lineIn = false ∨ t.st = 7#4 ∧ s.pins.lineIn = true)) ∨
    (s.st = 7#4 ∧ (t.st = 7#4 ∧ t.bitcnt = s.bitcnt ∨ t.st = 6#4 ∧ t.bitcnt = s.bitcnt + 1#6 ∧ s.bitcnt ≠ 39#6 ∨
      t.st = 8#4 ∧ t.bitcnt = 40#6)) ∨
    ((s.st = 8#4 ∨ 9 ≤ s.st.toNat) ∧ t.st = 0#4)

/-- 10_state.md R29: the pulse registers. `done` is 1 after an edge exactly when the edge was `CHECK`'s or a handshake
abort; it comes with `IDLE` and `busy` = 0, and the next edge without `rst` takes it away; the strobes are raised only by
a bit completed with `diag_en` = 1. -/
def Obligations.PulsesLastOnePeriod : Prop :=
  ∀ s t : State, s.pins.rst = false → step s = .next t →
    (t.done = true ↔ s.st = 8#4 ∨ ∃ ph ∈ handshakePhases, s.st = ph.code ∧ s.pins.lineIn = ph.level ∧
      ∃ c, s.params.hsWaitCap = some c ∧ c ≤ s.iter) ∧
    (t.done = true → t.st = 0#4 ∧ t.busy = false ∧
      (t.pins.rst = false → ∃ u, step t = .next u ∧ u.done = false)) ∧
    (t.diagBitStb = true ↔ s.st = 7#4 ∧ s.pins.diagEn = true ∧ (s.pins.lineIn = false ∨ s.params.bitCeil ≤ s.iter)) ∧
    (t.diagByteStb = true ↔ t.diagBitStb = true ∧ s.bitcnt.toNat % 8 = 7)

/-- 60_exceptions.md R135 to R139, R144, 10_state.md R28: an edge that ends a cycle gives it exactly one outcome, with the
cause the code names; `BitTimeout` goes before `ChecksumMismatch`. -/
def Obligations.FinishedCycleHasOneOutcome : Prop :=
  ∀ s t : State, s.pins.rst = false → step s = .next t → t.done = true →
    (t.valid = true ↔ t.err = 0#2) ∧
    (t.err = 0#2 ↔ s.st = 8#4 ∧ s.toSeen = false ∧ checksumOk s.params s.sr = true) ∧
    (t.err = 1#2 ↔ s.st = 3#4 ∨ s.st = 4#4 ∨ s.st = 5#4) ∧
    (t.err = 2#2 ↔ s.st = 8#4 ∧ s.toSeen = true) ∧
    (t.err = 3#2 ↔ s.st = 8#4 ∧ s.toSeen = false ∧ checksumOk s.params s.sr = false)

/-- 10_state.md R17, column "written by" (with R20, R25, R26, R27, R28, R30): at an edge with `rst` = 0 each register
changes only in the operations that column names. -/
def Obligations.RegistersAreWrittenOnlyByTheirRules : Prop :=
  ∀ s t : State, s.pins.rst = false → step s = .next t →
    let accepts := s.st = 0#4 ∧ s.pins.start = true
    (¬ accepts → s.st ≠ 7#4 → t.sr = s.sr ∧ t.bitcnt = s.bitcnt ∧ t.toSeen = s.toSeen) ∧
    (¬ accepts → (s.st = 7#4 → s.pins.lineIn = false ∨ s.iter < s.params.bitCeil) → t.toSeen = s.toSeen) ∧
    (¬ accepts → s.st ≠ 6#4 → t.gapLat = s.gapLat) ∧
    (¬ accepts → s.st ≠ 3#4 → s.st ≠ 4#4 → s.st ≠ 5#4 → s.st ≠ 8#4 → t.valid = s.valid ∧ t.err = s.err) ∧
    (s.st ≠ 7#4 → t.diagGap = s.diagGap ∧ t.diagWidth = s.diagWidth ∧ t.diagBit = s.diagBit ∧
      t.diagBitTo = s.diagBitTo ∧ t.diagByte = s.diagByte ∧ t.diagByteIdx = s.diagByteIdx) ∧
    (¬ accepts → s.st = 0#4 ∨ 8 ≤ s.st.toNat → t.tmr = s.tmr ∧ t.iter = s.iter) ∧
    (s.st = 1#4 → t.iter = s.iter)

/-- 20_memory.md R41: outside the five wait states `line_in` has no effect on any register. -/
def Obligations.LineIsReadOnlyInWaitStates : Prop :=
  ∀ (s : State) (x : Inputs) (rest : List Inputs) (v : Bool), s.st.toNat < 3 ∨ 8 ≤ s.st.toNat →
    step { s with inputs := x :: rest } = step { s with inputs := { x with lineIn := v } :: rest }

/-- 60_exceptions.md R142, 70_reset_and_hazards.md R171, 20_memory.md R53: a request while `busy` = 1 is lost without a
trace, in one edge and in every later one. -/
def Obligations.StartIsIgnoredWhileBusy : Prop :=
  ∀ (s : State) (x : Inputs) (rest : List Inputs) (v : Bool) (k : Nat), s.busy = true → 1 ≤ k →
    runEdges k { s with inputs := x :: rest } = runEdges k { s with inputs := { x with start := v } :: rest }

/-- 41_bit_decoder.md R108 (95_test_vectors.md section 5, property 1): two runs whose inputs differ in `diag_en` alone
agree after every edge on every register but the two strobes; and no operation reads a diagnostics register, so two runs
that differ in those alone agree on every other register. -/
def Obligations.DiagnosticsAreInvisible : Prop :=
  (∀ (s u : State) (k : Nat), s.params.ok = true → s.eraseDiagEn = u.eraseDiagEn →
    ∃ t v, runEdges k s = .next t ∧ runEdges k u = .next v ∧ t.eraseDiagEn = v.eraseDiagEn ∧
      t.lineOe = v.lineOe ∧ t.lineOut = v.lineOut) ∧
  (∀ (s u : State) (k : Nat), s.params.ok = true → s.eraseDiagnostics = u.eraseDiagnostics →
    ∃ t v, runEdges k s = .next t ∧ runEdges k u = .next v ∧ t.eraseDiagnostics = v.eraseDiagnostics)

/-- 10_state.md R36, 60_exceptions.md R146: two blocks that accept a request at the same edge under the same inputs,
held levels included, behave alike from there on, whatever their earlier cycles left in the registers, the diagnostics group (R30) apart. -/
def Obligations.AcceptedStartForgetsEarlierCycles : Prop :=
  ∀ (s u : State) (k : Nat), s.params.ok = true → u.params = s.params → u.inputs = s.inputs → u.held = s.held →
    u.edge = s.edge → s.st = 0#4 → u.st = 0#4 → s.pins.rst = false → s.pins.start = true →
    ∃ t v, runEdges (k + 1) s = .next t ∧ runEdges (k + 1) u = .next v ∧
      t.eraseDiagnostics = v.eraseDiagnostics

/-- 42_frame_checksum.md R125: from a period in `IDLE` on, without a request or a reset the result holds for any number
of edges, and `done` does not come back. -/
def Obligations.ResultHoldsWhileIdle : Prop :=
  ∀ (s : State) (xs rest : List Inputs), s.params.ok = true → s.st = 0#4 → noReset xs →
    (∀ x ∈ xs, x.start = false) → s.inputs = xs ++ rest →
    ∃ t, runEdges xs.length s = .next t ∧ t.st = 0#4 ∧ t.valid = s.valid ∧ t.err = s.err ∧ t.sr = s.sr ∧
      t.dataOutputs = s.dataOutputs ∧ (xs ≠ [] → t.done = false ∧ t.sinkEvent = .none)

/-- 20_memory.md R47: the result outputs change only at the edge that accepts `start`, at `CHECK`, at a handshake abort,
and at a reset edge. The invariant is needed: in a state no run reaches, `valid` could be 1 while bits are shifted in. -/
def Obligations.ResultOutputsChangeOnlyAtCycleEnds : Prop :=
  ∀ s t : State, s.Inv → step s = .next t →
    (t.valid ≠ s.valid ∨ t.err ≠ s.err ∨ t.dataOutputs ≠ s.dataOutputs) →
    s.pins.rst = true ∨ (s.st = 0#4 ∧ s.pins.start = true) ∨ t.done = true

/-! ### Runs of samples -/

/-- 30_encoding.md R59 (with 41_bit_decoder.md R97 to R102): from `BIT_GAP`, `g` further low samples and then a high run
of `n` samples. Up to the ceiling the run and the low sample that ends it record the comparator's bit; a run that reaches
ceiling + 1 records 0 and sets `to_seen`, and has consumed exactly ceiling + 1 high samples. -/
def Obligations.HighRunDecodesByItsLength : Prop :=
  ∀ (s : State) (lows highs : List Inputs) (rest : List Inputs), s.Inv → s.st = 6#4 → noReset (lows ++ highs) →
    (∀ x ∈ lows, x.lineIn = false) → (∀ x ∈ highs, x.lineIn = true) → highs ≠ [] →
    s.inputs = lows ++ highs ++ rest →
    (highs.length ≤ s.params.bitCeil → ∀ (x : Inputs) (later : List Inputs), rest = x :: later → x.rst = false →
      x.lineIn = false →
      ∃ t, runEdges (lows.length + highs.length + 1) s = .next t ∧
        t.sr = s.sr <<< 1 ||| (BitVec.ofBool (decide (s.params.thresholdTicks ≤ highs.length))).setWidth 40 ∧
        t.bitcnt = s.bitcnt + 1#6 ∧ t.toSeen = s.toSeen ∧ t.st = (if s.bitcnt = 39#6 then 8#4 else 6#4) ∧
        t.tmr = 1 ∧ t.iter = 1 ∧ t.diagGap = min (s.tmr + lows.length) (2 ^ s.params.tmrW - 1) ∧
        t.diagWidth = highs.length ∧ t.diagBitTo = false ∧ t.inputs = later) ∧
    (highs.length = s.params.bitCeil + 1 →
      ∃ t, runEdges (lows.length + highs.length) s = .next t ∧
        t.sr = s.sr <<< 1 ∧ t.bitcnt = s.bitcnt + 1#6 ∧ t.toSeen = true ∧
        t.st = (if s.bitcnt = 39#6 then 8#4 else 6#4) ∧ t.tmr = 0 ∧ t.iter = 0 ∧
        t.diagGap = min (s.tmr + lows.length) (2 ^ s.params.tmrW - 1) ∧
        t.diagWidth = s.params.bitCeil + 1 ∧ t.diagBit = false ∧ t.diagBitTo = true ∧ t.inputs = rest)

/-- 41_bit_decoder.md R110: one visit to `BIT_HIGH` lasts at most `BIT_CEIL` edges, whatever the line does, and ends by
recording exactly one bit. -/
def Obligations.BitHighVisitIsBounded : Prop :=
  ∀ (s : State) (xs rest : List Inputs), s.Inv → s.st = 7#4 → noReset xs → xs.length = s.params.bitCeil →
    s.inputs = xs ++ rest →
    ∃ k t, 1 ≤ k ∧ k ≤ s.params.bitCeil ∧ runEdges k s = .next t ∧ t.st ≠ 7#4 ∧
      t.bitcnt.toNat = s.bitcnt.toNat + 1 ∧
      ∀ j, j < k → ∃ u, runEdges j s = .next u ∧ u.st = 7#4 ∧ u.bitcnt = s.bitcnt ∧ u.sr = s.sr

/-- 41_bit_decoder.md R95, 70_reset_and_hazards.md R179, the bound of the data phase: from `BIT_GAP`, if no run of
consecutive low samples is longer than `g`, the missing bits take at most `g` + ceiling + 1 edges each, whatever else the
line does, and then `CHECK` sees forty bits and ends the cycle. -/
def Obligations.DataPhaseEndsWhenGapsEnd : Prop :=
  ∀ (s : State) (g : Nat) (xs rest : List Inputs), s.Inv → s.st = 6#4 → noReset (xs ++ rest) →
    (∀ before lows later, xs = before ++ lows ++ later → (∀ x ∈ lows, x.lineIn = false) → lows.length ≤ g) →
    xs.length = (40 - s.bitcnt.toNat) * (g + s.params.bitCeil + 1) → rest ≠ [] → s.inputs = xs ++ rest →
    ∃ k t u, k ≤ xs.length ∧ runEdges k s = .next t ∧ t.st = 8#4 ∧ t.bitcnt = 40#6 ∧
      step t = .next u ∧ u.done = true ∧ u.st = 0#4 ∧ (u.valid = true ↔ u.err = 0#2)

/-- 41_bit_decoder.md R105 (b), 42_frame_checksum.md R121: a line that stays high through the data phase makes each
missing bit take exactly ceiling + 1 edges and record 0; the cycle ends, invalid, with `ERR_BIT_TIMEOUT`. -/
def Obligations.StuckHighLineEndsInBitTimeout : Prop :=
  ∀ (s : State) (xs : List Inputs) (y : Inputs) (rest : List Inputs), s.Inv → s.st = 6#4 → noReset xs →
    (∀ x ∈ xs, x.lineIn = true) → xs.length = (40 - s.bitcnt.toNat) * (s.params.bitCeil + 1) → y.rst = false →
    s.inputs = xs ++ y :: rest →
    ∃ t u, runEdges xs.length s = .next t ∧ t.st = 8#4 ∧ t.bitcnt = 40#6 ∧
      t.sr = s.sr <<< (40 - s.bitcnt.toNat) ∧ t.toSeen = true ∧ t.tmr = 0 ∧ t.iter = 0 ∧
      step t = .next u ∧ u.done = true ∧ u.valid = false ∧ u.err = 2#2 ∧ u.st = 0#4 ∧ u.inputs = rest

/-- THE WHOLE READ CYCLE (00_scope.md R3; 30_encoding.md R59, R62, R63, R70; 40_handshake.md R76 to R86;
41_bit_decoder.md R95, R109; 42_frame_checksum.md R118; 70_reset_and_hazards.md R179). From `IDLE` under a request, a
line that answers `H<a> L<b> H<c>` and then forty pairs `L<g> H<w>` and a final low sample, with any run lengths a >= 0,
b, c, g >= 1 (within the cap, if there is one) and 1 <= w <= `BIT_CEIL`, is decoded into the frame whose n-th arriving
bit is the class of the n-th width. The cycle ends at the edge R179 counts, with the verdict of the checksum; the lengths
of the low runs and of the handshake runs take no part in it. -/
def Obligations.CycleDecodesTheFrame : Prop :=
  ∀ (s : State) (request : Inputs) (signal wave : List Inputs) (last : Inputs) (rest : List Inputs)
    (a b c : Nat) (gap width : Fin 40 → Nat) (f : Frame),
    s.params.ok = true → s.st = 0#4 →
    s.inputs = request :: (signal ++ wave ++ last :: rest) →
    request.rst = false → request.start = true → noReset signal → noReset wave → last.rst = false →
    signal.length = s.params.startLowTicks + s.params.startHighTicks →
    lineOf wave = waveSamples ([.high a, .low b, .high c]
      ++ (List.ofFn fun n => [Token.low (gap n), Token.high (width n)]).flatten ++ [.low 1]) →
    1 ≤ b → 1 ≤ c → (∀ n, 1 ≤ gap n) → (∀ n, 1 ≤ width n ∧ width n ≤ s.params.bitCeil) →
    (∀ cap, s.params.hsWaitCap = some cap → a ≤ cap ∧ b ≤ cap ∧ c ≤ cap) →
    (∀ n : Fin 40, f.getLsbD (39 - n) = decide (s.params.thresholdTicks ≤ width n)) →
    ∃ t, runEdges (1 + s.params.startLowTicks + s.params.startHighTicks + wave.length + 1) s = .next t ∧
      t.st = 0#4 ∧ t.done = true ∧ t.sr = f ∧ t.bitcnt = 40#6 ∧ t.toSeen = false ∧
      t.valid = checksumOk s.params f ∧ t.err = (if checksumOk s.params f then 0#2 else 3#2) ∧ t.inputs = rest

/-- 00_scope.md R11: no comparison is ever made on a saturated counter, so two blocks that differ in the widths of their
counters alone, both in range, run in lockstep. One edge, from every two states with the invariant whose registers of
fixed width and inputs agree and whose counters and timings hold one count each, saturated in each block's own width
(`State.Lockstep`): the next states are two such states again. And whole runs from reset: after every edge the sequencer,
the frame, the result and the line outputs agree. -/
def Obligations.CounterWidthsAreInvisible : Prop :=
  (∀ s u t : State, s.Inv → u.Inv → s.Lockstep u → step s = .next t →
    ∃ v, step u = .next v ∧ t.Inv ∧ v.Inv ∧ t.Lockstep v) ∧
  (∀ (p : Params) (tw iw : Nat) (xs : List Inputs) (h : Option Inputs) (k : Nat),
    p.ok = true → ({ p with tmrW := tw, iterW := iw } : Params).ok = true →
    ∃ t u, runEdges k (State.resetWith p xs h) = .next t ∧
      runEdges k (State.resetWith { p with tmrW := tw, iterW := iw } xs h) = .next u ∧ t.control = u.control ∧
      t.dataOutputs = u.dataOutputs ∧ t.lineOe = u.lineOe ∧ t.lineOut = u.lineOut)

/-- 70_reset_and_hazards.md R181, 00_scope.md R11: with the threshold 280, the clocks at which the document's 28 and 70
microsecond pulses are classified as it says are 4 to 9 ticks a microsecond. -/
def Obligations.DocumentPulsesFixTheClockRange : Prop :=
  ∀ p : Params, p.thresholdTicks = 280 →
    (p.classifiesDocument = true ↔ 4 ≤ p.ticksPerUs ∧ p.ticksPerUs < 10) ∧
    (p.classifiesDocument = true ↔
      classify p (28 * p.ticksPerUs) = false ∧ classify p (70 * p.ticksPerUs) = true)

/-! ### Waveforms with a last token -/

/-- 40_handshake.md R84, 41_bit_decoder.md R98 under a last token `H*` or `L*` of 30_encoding.md R70: once the queue of
inputs is used up and the line is held at the level the wait waits at, with `rst` = 0, the block stays in that wait for
ever: a handshake wait without a cap, and `BIT_GAP` under every cap. `busy` stays 1, `done` never rises and both counters
saturate. -/
def Obligations.HeldLineHangsForEver : Prop :=
  ∀ (s : State) (x : Inputs), s.Inv → s.inputs = [] → s.held = some x → x.rst = false →
    ((∃ ph ∈ handshakePhases, s.st = ph.code ∧ x.lineIn = ph.level ∧ s.params.hsWaitCap = none) ∨
      (s.st = 6#4 ∧ x.lineIn = false)) →
    ∀ k : Nat, ∃ t, runEdges k s = .next t ∧ t.st = s.st ∧ t.busy = true ∧ t.done = false ∧ t.valid = s.valid ∧
      t.err = s.err ∧ t.sr = s.sr ∧ t.bitcnt = s.bitcnt ∧ t.tmr = min (s.tmr + k) (2 ^ s.params.tmrW - 1) ∧
      t.iter = min (s.iter + k) (2 ^ s.params.iterW - 1) ∧ t.pins = x

/-- 30_encoding.md R70: `H<n>` and `L<n>` stand for `n` samples at their level wherever they stand in a waveform; a last
token `H*` or `L*` gives its level to every later sample; if the edge that accepts `start` is numbered 0, the block is
for the first time in `HS_WAIT_REL` before edge 1 + `START_LOW_TICKS` + `START_HIGH_TICKS`, which is 72002 with the
default parameters, and that edge reads the waveform's first sample, edge 1 + `START_LOW_TICKS` + `START_HIGH_TICKS` + j
sample j, for every j; the levels of the line at the earlier edges take no part. -/
def Obligations.WaveformIsReadFromItsFirstSample : Prop :=
  (∀ (before after : List Token) (last : Option LastToken) (n i : Nat), i < n →
    Waveform.sample ⟨before ++ .high n :: after, last⟩ ((waveSamples before).length + i) = some true ∧
    Waveform.sample ⟨before ++ .low n :: after, last⟩ ((waveSamples before).length + i) = some false) ∧
  (∀ (tokens : List Token) (j : Nat), (waveSamples tokens).length ≤ j →
    Waveform.sample ⟨tokens, some .highForever⟩ j = some true ∧
    Waveform.sample ⟨tokens, some .lowForever⟩ j = some false) ∧
  (1 + Params.hardware.startLowTicks + Params.hardware.startHighTicks = 72002) ∧
  ∀ (s : State) (w : Waveform) (request : Inputs) (signal : List Inputs) (diagEn : Bool), s.params.ok = true →
    s.st = 0#4 → request.rst = false → request.start = true → noReset signal →
    signal.length = s.params.startLowTicks + s.params.startHighTicks →
    let first := 1 + s.params.startLowTicks + s.params.startHighTicks
    let placed := w.placeAfter (request :: signal) diagEn s
    (∀ k, k < first → ∃ t, runEdges k placed = .next t ∧ t.st.toNat < 3) ∧
    (∃ t, runEdges first placed = .next t ∧ t.st = 3#4 ∧ t.tmr = 0 ∧ t.iter = 0 ∧
      ∀ (request' : Inputs) (signal' : List Inputs), request'.rst = false → request'.start = true →
        noReset signal' → signal'.length = signal.length →
        runEdges first (w.placeAfter (request' :: signal') diagEn s) = .next t) ∧
    (∀ j level, w.sample j = some level →
      ∃ t, runEdges (first + j) placed = .next t ∧ t.pins = linePins diagEn level)
end

