-- ==== Sys2Proof/Laws/State.lean ====
section
/-! SUPPORT. One lemma per field per update of State, true by rfl: later proofs rewrite with these and unfold no record
update. -/

namespace Sys2Proof.Machine

variable (s : State)

/-! ### `State.clearPulses` -/

@[simp] theorem State.clearPulses_st : (State.clearPulses s).st = s.st := rfl
@[simp] theorem State.clearPulses_bitcnt : (State.clearPulses s).bitcnt = s.bitcnt := rfl
@[simp] theorem State.clearPulses_sr : (State.clearPulses s).sr = s.sr := rfl
@[simp] theorem State.clearPulses_tmr : (State.clearPulses s).tmr = s.tmr := rfl
@[simp] theorem State.clearPulses_iter : (State.clearPulses s).iter = s.iter := rfl
@[simp] theorem State.clearPulses_toSeen : (State.clearPulses s).toSeen = s.toSeen := rfl
@[simp] theorem State.clearPulses_gapLat : (State.clearPulses s).gapLat = s.gapLat := rfl
@[simp] theorem State.clearPulses_valid : (State.clearPulses s).valid = s.valid := rfl
@[simp] theorem State.clearPulses_err : (State.clearPulses s).err = s.err := rfl
@[simp] theorem State.clearPulses_done : (State.clearPulses s).done = false := rfl
@[simp] theorem State.clearPulses_diagBitStb : (State.clearPulses s).diagBitStb = false := rfl
@[simp] theorem State.clearPulses_diagGap : (State.clearPulses s).diagGap = s.diagGap := rfl
@[simp] theorem State.clearPulses_diagWidth : (State.clearPulses s).diagWidth = s.diagWidth := rfl
@[simp] theorem State.clearPulses_diagBit : (State.clearPulses s).diagBit = s.diagBit := rfl
@[simp] theorem State.clearPulses_diagBitTo : (State.clearPulses s).diagBitTo = s.diagBitTo := rfl
@[simp] theorem State.clearPulses_diagByteStb : (State.clearPulses s).diagByteStb = false := rfl
@[simp] theorem State.clearPulses_diagByte : (State.clearPulses s).diagByte = s.diagByte := rfl
@[simp] theorem State.clearPulses_diagByteIdx : (State.clearPulses s).diagByteIdx = s.diagByteIdx := rfl
@[simp] theorem State.clearPulses_params : (State.clearPulses s).params = s.params := rfl
@[simp] theorem State.clearPulses_inputs : (State.clearPulses s).inputs = s.inputs := rfl
@[simp] theorem State.clearPulses_held : (State.clearPulses s).held = s.held := rfl
@[simp] theorem State.clearPulses_edge : (State.clearPulses s).edge = s.edge := rfl
@[simp] theorem State.clearPulses_pins : (State.clearPulses s).pins = s.pins := rfl

/-! ### `State.nextEdge` -/

@[simp] theorem State.nextEdge_st : (State.nextEdge s).st = s.st := rfl
@[simp] theorem State.nextEdge_bitcnt : (State.nextEdge s).bitcnt = s.bitcnt := rfl
@[simp] theorem State.nextEdge_sr : (State.nextEdge s).sr = s.sr := rfl
@[simp] theorem State.nextEdge_tmr : (State.nextEdge s).tmr = s.tmr := rfl
@[simp] theorem State.nextEdge_iter : (State.nextEdge s).iter = s.iter := rfl
@[simp] theorem State.nextEdge_toSeen : (State.nextEdge s).toSeen = s.toSeen := rfl
@[simp] theorem State.nextEdge_gapLat : (State.nextEdge s).gapLat = s.gapLat := rfl
@[simp] theorem State.nextEdge_valid : (State.nextEdge s).valid = s.valid := rfl
@[simp] theorem State.nextEdge_err : (State.nextEdge s).err = s.err := rfl
@[simp] theorem State.nextEdge_done : (State.nextEdge s).done = s.done := rfl
@[simp] theorem State.nextEdge_diagBitStb : (State.nextEdge s).diagBitStb = s.diagBitStb := rfl
@[simp] theorem State.nextEdge_diagGap : (State.nextEdge s).diagGap = s.diagGap := rfl
@[simp] theorem State.nextEdge_diagWidth : (State.nextEdge s).diagWidth = s.diagWidth := rfl
@[simp] theorem State.nextEdge_diagBit : (State.nextEdge s).diagBit = s.diagBit := rfl
@[simp] theorem State.nextEdge_diagBitTo : (State.nextEdge s).diagBitTo = s.diagBitTo := rfl
@[simp] theorem State.nextEdge_diagByteStb : (State.nextEdge s).diagByteStb = s.diagByteStb := rfl
@[simp] theorem State.nextEdge_diagByte : (State.nextEdge s).diagByte = s.diagByte := rfl
@[simp] theorem State.nextEdge_diagByteIdx : (State.nextEdge s).diagByteIdx = s.diagByteIdx := rfl
@[simp] theorem State.nextEdge_params : (State.nextEdge s).params = s.params := rfl
@[simp] theorem State.nextEdge_inputs : (State.nextEdge s).inputs = s.inputs.tail := rfl
@[simp] theorem State.nextEdge_held : (State.nextEdge s).held = s.held := rfl
@[simp] theorem State.nextEdge_edge : (State.nextEdge s).edge = s.edge + 1 := rfl

/-! ### `State.countSample` -/

@[simp] theorem State.countSample_st : (State.countSample s).st = s.st := rfl
@[simp] theorem State.countSample_bitcnt : (State.countSample s).bitcnt = s.bitcnt := rfl
@[simp] theorem State.countSample_sr : (State.countSample s).sr = s.sr := rfl
@[simp] theorem State.countSample_tmr : (State.countSample s).tmr = incT s.params s.tmr := rfl
@[simp] theorem State.countSample_iter : (State.countSample s).iter = incI s.params s.iter := rfl
@[simp] theorem State.countSample_toSeen : (State.countSample s).toSeen = s.toSeen := rfl
@[simp] theorem State.countSample_gapLat : (State.countSample s).gapLat = s.gapLat := rfl
@[simp] theorem State.countSample_valid : (State.countSample s).valid = s.valid := rfl
@[simp] theorem State.countSample_err : (State.countSample s).err = s.err := rfl
@[simp] theorem State.countSample_done : (State.countSample s).done = s.done := rfl
@[simp] theorem State.countSample_diagBitStb : (State.countSample s).diagBitStb = s.diagBitStb := rfl
@[simp] theorem State.countSample_diagGap : (State.countSample s).diagGap = s.diagGap := rfl
@[simp] theorem State.countSample_diagWidth : (State.countSample s).diagWidth = s.diagWidth := rfl
@[simp] theorem State.countSample_diagBit : (State.countSample s).diagBit = s.diagBit := rfl
@[simp] theorem State.countSample_diagBitTo : (State.countSample s).diagBitTo = s.diagBitTo := rfl
@[simp] theorem State.countSample_diagByteStb : (State.countSample s).diagByteStb = s.diagByteStb := rfl
@[simp] theorem State.countSample_diagByte : (State.countSample s).diagByte = s.diagByte := rfl
@[simp] theorem State.countSample_diagByteIdx : (State.countSample s).diagByteIdx = s.diagByteIdx := rfl
@[simp] theorem State.countSample_params : (State.countSample s).params = s.params := rfl
@[simp] theorem State.countSample_inputs : (State.countSample s).inputs = s.inputs := rfl
@[simp] theorem State.countSample_held : (State.countSample s).held = s.held := rfl
@[simp] theorem State.countSample_edge : (State.countSample s).edge = s.edge := rfl
@[simp] theorem State.countSample_pins : (State.countSample s).pins = s.pins := rfl

/-! ### `State.countPeriod` -/

@[simp] theorem State.countPeriod_st : (State.countPeriod s).st = s.st := rfl
@[simp] theorem State.countPeriod_bitcnt : (State.countPeriod s).bitcnt = s.bitcnt := rfl
@[simp] theorem State.countPeriod_sr : (State.countPeriod s).sr = s.sr := rfl
@[simp] theorem State.countPeriod_tmr : (State.countPeriod s).tmr = incT s.params s.tmr := rfl
@[simp] theorem State.countPeriod_iter : (State.countPeriod s).iter = s.iter := rfl
@[simp] theorem State.countPeriod_toSeen : (State.countPeriod s).toSeen = s.toSeen := rfl
@[simp] theorem State.countPeriod_gapLat : (State.countPeriod s).gapLat = s.gapLat := rfl
@[simp] theorem State.countPeriod_valid : (State.countPeriod s).valid = s.valid := rfl
@[simp] theorem State.countPeriod_err : (State.countPeriod s).err = s.err := rfl
@[simp] theorem State.countPeriod_done : (State.countPeriod s).done = s.done := rfl
@[simp] theorem State.countPeriod_diagBitStb : (State.countPeriod s).diagBitStb = s.diagBitStb := rfl
@[simp] theorem State.countPeriod_diagGap : (State.countPeriod s).diagGap = s.diagGap := rfl
@[simp] theorem State.countPeriod_diagWidth : (State.countPeriod s).diagWidth = s.diagWidth := rfl
@[simp] theorem State.countPeriod_diagBit : (State.countPeriod s).diagBit = s.diagBit := rfl
@[simp] theorem State.countPeriod_diagBitTo : (State.countPeriod s).diagBitTo = s.diagBitTo := rfl
@[simp] theorem State.countPeriod_diagByteStb : (State.countPeriod s).diagByteStb = s.diagByteStb := rfl
@[simp] theorem State.countPeriod_diagByte : (State.countPeriod s).diagByte = s.diagByte := rfl
@[simp] theorem State.countPeriod_diagByteIdx : (State.countPeriod s).diagByteIdx = s.diagByteIdx := rfl
@[simp] theorem State.countPeriod_params : (State.countPeriod s).params = s.params := rfl
@[simp] theorem State.countPeriod_inputs : (State.countPeriod s).inputs = s.inputs := rfl
@[simp] theorem State.countPeriod_held : (State.countPeriod s).held = s.held := rfl
@[simp] theorem State.countPeriod_edge : (State.countPeriod s).edge = s.edge := rfl
@[simp] theorem State.countPeriod_pins : (State.countPeriod s).pins = s.pins := rfl

/-! ### `State.enterWait` -/

@[simp] theorem State.enterWait_st (next : Instr) (n : Nat) : (State.enterWait next n s).st = encode next := rfl
@[simp] theorem State.enterWait_bitcnt (next : Instr) (n : Nat) : (State.enterWait next n s).bitcnt = s.bitcnt := rfl
@[simp] theorem State.enterWait_sr (next : Instr) (n : Nat) : (State.enterWait next n s).sr = s.sr := rfl
@[simp] theorem State.enterWait_tmr (next : Instr) (n : Nat) : (State.enterWait next n s).tmr = n := rfl
@[simp] theorem State.enterWait_iter (next : Instr) (n : Nat) : (State.enterWait next n s).iter = n := rfl
@[simp] theorem State.enterWait_toSeen (next : Instr) (n : Nat) : (State.enterWait next n s).toSeen = s.toSeen := rfl
@[simp] theorem State.enterWait_gapLat (next : Instr) (n : Nat) : (State.enterWait next n s).gapLat = s.gapLat := rfl
@[simp] theorem State.enterWait_valid (next : Instr) (n : Nat) : (State.enterWait next n s).valid = s.valid := rfl
@[simp] theorem State.enterWait_err (next : Instr) (n : Nat) : (State.enterWait next n s).err = s.err := rfl
@[simp] theorem State.enterWait_done (next : Instr) (n : Nat) : (State.enterWait next n s).done = s.done := rfl
@[simp] theorem State.enterWait_diagBitStb (next : Instr) (n : Nat) : (State.enterWait next n s).diagBitStb = s.diagBitStb := rfl
@[simp] theorem State.enterWait_diagGap (next : Instr) (n : Nat) : (State.enterWait next n s).diagGap = s.diagGap := rfl
@[simp] theorem State.enterWait_diagWidth (next : Instr) (n : Nat) : (State.enterWait next n s).diagWidth = s.diagWidth := rfl
@[simp] theorem State.enterWait_diagBit (next : Instr) (n : Nat) : (State.enterWait next n s).diagBit = s.diagBit := rfl
@[simp] theorem State.enterWait_diagBitTo (next : Instr) (n : Nat) : (State.enterWait next n s).diagBitTo = s.diagBitTo := rfl
@[simp] theorem State.enterWait_diagByteStb (next : Instr) (n : Nat) : (State.enterWait next n s).diagByteStb = s.diagByteStb := rfl
@[simp] theorem State.enterWait_diagByte (next : Instr) (n : Nat) : (State.enterWait next n s).diagByte = s.diagByte := rfl
@[simp] theorem State.enterWait_diagByteIdx (next : Instr) (n : Nat) : (State.enterWait next n s).diagByteIdx = s.diagByteIdx := rfl
@[simp] theorem State.enterWait_params (next : Instr) (n : Nat) : (State.enterWait next n s).params = s.params := rfl
@[simp] theorem State.enterWait_inputs (next : Instr) (n : Nat) : (State.enterWait next n s).inputs = s.inputs := rfl
@[simp] theorem State.enterWait_held (next : Instr) (n : Nat) : (State.enterWait next n s).held = s.held := rfl
@[simp] theorem State.enterWait_edge (next : Instr) (n : Nat) : (State.enterWait next n s).edge = s.edge := rfl
@[simp] theorem State.enterWait_pins (next : Instr) (n : Nat) : (State.enterWait next n s).pins = s.pins := rfl

/-! ### `State.endCycle` -/

@[simp] theorem State.endCycle_st (ok : Bool) (code : ErrCode) : (State.endCycle ok code s).st = encode .idle := rfl
@[simp] theorem State.endCycle_bitcnt (ok : Bool) (code : ErrCode) : (State.endCycle ok code s).bitcnt = s.bitcnt := rfl
@[simp] theorem State.endCycle_sr (ok : Bool) (code : ErrCode) : (State.endCycle ok code s).sr = s.sr := rfl
@[simp] theorem State.endCycle_tmr (ok : Bool) (code : ErrCode) : (State.endCycle ok code s).tmr = s.tmr := rfl
@[simp] theorem State.endCycle_iter (ok : Bool) (code : ErrCode) : (State.endCycle ok code s).iter = s.iter := rfl
@[simp] theorem State.endCycle_toSeen (ok : Bool) (code : ErrCode) : (State.endCycle ok code s).toSeen = s.toSeen := rfl
@[simp] theorem State.endCycle_gapLat (ok : Bool) (code : ErrCode) : (State.endCycle ok code s).gapLat = s.gapLat := rfl
@[simp] theorem State.endCycle_valid (ok : Bool) (code : ErrCode) : (State.endCycle ok code s).valid = ok := rfl
@[simp] theorem State.endCycle_err (ok : Bool) (code : ErrCode) : (State.endCycle ok code s).err = code := rfl
@[simp] theorem State.endCycle_done (ok : Bool) (code : ErrCode) : (State.endCycle ok code s).done = true := rfl
@[simp] theorem State.endCycle_diagBitStb (ok : Bool) (code : ErrCode) : (State.endCycle ok code s).diagBitStb = s.diagBitStb := rfl
@[simp] theorem State.endCycle_diagGap (ok : Bool) (code : ErrCode) : (State.endCycle ok code s).diagGap = s.diagGap := rfl
@[simp] theorem State.endCycle_diagWidth (ok : Bool) (code : ErrCode) : (State.endCycle ok code s).diagWidth = s.diagWidth := rfl
@[simp] theorem State.endCycle_diagBit (ok : Bool) (code : ErrCode) : (State.endCycle ok code s).diagBit = s.diagBit := rfl
@[simp] theorem State.endCycle_diagBitTo (ok : Bool) (code : ErrCode) : (State.endCycle ok code s).diagBitTo = s.diagBitTo := rfl
@[simp] theorem State.endCycle_diagByteStb (ok : Bool) (code : ErrCode) : (State.endCycle ok code s).diagByteStb = s.diagByteStb := rfl
@[simp] theorem State.endCycle_diagByte (ok : Bool) (code : ErrCode) : (State.endCycle ok code s).diagByte = s.diagByte := rfl
@[simp] theorem State.endCycle_diagByteIdx (ok : Bool) (code : ErrCode) : (State.endCycle ok code s).diagByteIdx = s.diagByteIdx := rfl
@[simp] theorem State.endCycle_params (ok : Bool) (code : ErrCode) : (State.endCycle ok code s).params = s.params := rfl
@[simp] theorem State.endCycle_inputs (ok : Bool) (code : ErrCode) : (State.endCycle ok code s).inputs = s.inputs := rfl
@[simp] theorem State.endCycle_held (ok : Bool) (code : ErrCode) : (State.endCycle ok code s).held = s.held := rfl
@[simp] theorem State.endCycle_edge (ok : Bool) (code : ErrCode) : (State.endCycle ok code s).edge = s.edge := rfl
@[simp] theorem State.endCycle_pins (ok : Bool) (code : ErrCode) : (State.endCycle ok code s).pins = s.pins := rfl

/-! ### `State.raiseHandshakeTimeout` -/

@[simp] theorem State.raiseHandshakeTimeout_st : (State.raiseHandshakeTimeout s).st = encode .idle := rfl
@[simp] theorem State.raiseHandshakeTimeout_bitcnt : (State.raiseHandshakeTimeout s).bitcnt = s.bitcnt := rfl
@[simp] theorem State.raiseHandshakeTimeout_sr : (State.raiseHandshakeTimeout s).sr = s.sr := rfl
@[simp] theorem State.raiseHandshakeTimeout_tmr : (State.raiseHandshakeTimeout s).tmr = s.tmr := rfl
@[simp] theorem State.raiseHandshakeTimeout_iter : (State.raiseHandshakeTimeout s).iter = s.iter := rfl
@[simp] theorem State.raiseHandshakeTimeout_toSeen : (State.raiseHandshakeTimeout s).toSeen = s.toSeen := rfl
@[simp] theorem State.raiseHandshakeTimeout_gapLat : (State.raiseHandshakeTimeout s).gapLat = s.gapLat := rfl
@[simp] theorem State.raiseHandshakeTimeout_valid : (State.raiseHandshakeTimeout s).valid = false := rfl
@[simp] theorem State.raiseHandshakeTimeout_err : (State.raiseHandshakeTimeout s).err = errHandshake := rfl
@[simp] theorem State.raiseHandshakeTimeout_done : (State.raiseHandshakeTimeout s).done = true := rfl
@[simp] theorem State.raiseHandshakeTimeout_diagBitStb : (State.raiseHandshakeTimeout s).diagBitStb = s.diagBitStb := rfl
@[simp] theorem State.raiseHandshakeTimeout_diagGap : (State.raiseHandshakeTimeout s).diagGap = s.diagGap := rfl
@[simp] theorem State.raiseHandshakeTimeout_diagWidth : (State.raiseHandshakeTimeout s).diagWidth = s.diagWidth := rfl
@[simp] theorem State.raiseHandshakeTimeout_diagBit : (State.raiseHandshakeTimeout s).diagBit = s.diagBit := rfl
@[simp] theorem State.raiseHandshakeTimeout_diagBitTo : (State.raiseHandshakeTimeout s).diagBitTo = s.diagBitTo := rfl
@[simp] theorem State.raiseHandshakeTimeout_diagByteStb : (State.raiseHandshakeTimeout s).diagByteStb = s.diagByteStb := rfl
@[simp] theorem State.raiseHandshakeTimeout_diagByte : (State.raiseHandshakeTimeout s).diagByte = s.diagByte := rfl
@[simp] theorem State.raiseHandshakeTimeout_diagByteIdx : (State.raiseHandshakeTimeout s).diagByteIdx = s.diagByteIdx := rfl
@[simp] theorem State.raiseHandshakeTimeout_params : (State.raiseHandshakeTimeout s).params = s.params := rfl
@[simp] theorem State.raiseHandshakeTimeout_inputs : (State.raiseHandshakeTimeout s).inputs = s.inputs := rfl
@[simp] theorem State.raiseHandshakeTimeout_held : (State.raiseHandshakeTimeout s).held = s.held := rfl
@[simp] theorem State.raiseHandshakeTimeout_edge : (State.raiseHandshakeTimeout s).edge = s.edge := rfl
@[simp] theorem State.raiseHandshakeTimeout_pins : (State.raiseHandshakeTimeout s).pins = s.pins := rfl

/-! ### `State.markBitTimeout` -/

@[simp] theorem State.markBitTimeout_st : (State.markBitTimeout s).st = s.st := rfl
@[simp] theorem State.markBitTimeout_bitcnt : (State.markBitTimeout s).bitcnt = s.bitcnt := rfl
@[simp] theorem State.markBitTimeout_sr : (State.markBitTimeout s).sr = s.sr := rfl
@[simp] theorem State.markBitTimeout_tmr : (State.markBitTimeout s).tmr = s.tmr := rfl
@[simp] theorem State.markBitTimeout_iter : (State.markBitTimeout s).iter = s.iter := rfl
@[simp] theorem State.markBitTimeout_toSeen : (State.markBitTimeout s).toSeen = true := rfl
@[simp] theorem State.markBitTimeout_gapLat : (State.markBitTimeout s).gapLat = s.gapLat := rfl
@[simp] theorem State.markBitTimeout_valid : (State.markBitTimeout s).valid = s.valid := rfl
@[simp] theorem State.markBitTimeout_err : (State.markBitTimeout s).err = s.err := rfl
@[simp] theorem State.markBitTimeout_done : (State.markBitTimeout s).done = s.done := rfl
@[simp] theorem State.markBitTimeout_diagBitStb : (State.markBitTimeout s).diagBitStb = s.diagBitStb := rfl
@[simp] theorem State.markBitTimeout_diagGap : (State.markBitTimeout s).diagGap = s.diagGap := rfl
@[simp] theorem State.markBitTimeout_diagWidth : (State.markBitTimeout s).diagWidth = s.diagWidth := rfl
@[simp] theorem State.markBitTimeout_diagBit : (State.markBitTimeout s).diagBit = s.diagBit := rfl
@[simp] theorem State.markBitTimeout_diagBitTo : (State.markBitTimeout s).diagBitTo = s.diagBitTo := rfl
@[simp] theorem State.markBitTimeout_diagByteStb : (State.markBitTimeout s).diagByteStb = s.diagByteStb := rfl
@[simp] theorem State.markBitTimeout_diagByte : (State.markBitTimeout s).diagByte = s.diagByte := rfl
@[simp] theorem State.markBitTimeout_diagByteIdx : (State.markBitTimeout s).diagByteIdx = s.diagByteIdx := rfl
@[simp] theorem State.markBitTimeout_params : (State.markBitTimeout s).params = s.params := rfl
@[simp] theorem State.markBitTimeout_inputs : (State.markBitTimeout s).inputs = s.inputs := rfl
@[simp] theorem State.markBitTimeout_held : (State.markBitTimeout s).held = s.held := rfl
@[simp] theorem State.markBitTimeout_edge : (State.markBitTimeout s).edge = s.edge := rfl
@[simp] theorem State.markBitTimeout_pins : (State.markBitTimeout s).pins = s.pins := rfl

/-! ### `State.acceptStart` -/

@[simp] theorem State.acceptStart_st : (State.acceptStart s).st = encode .startLow := rfl
@[simp] theorem State.acceptStart_bitcnt : (State.acceptStart s).bitcnt = 0#6 := rfl
@[simp] theorem State.acceptStart_sr : (State.acceptStart s).sr = 0#40 := rfl
@[simp] theorem State.acceptStart_tmr : (State.acceptStart s).tmr = 0 := rfl
@[simp] theorem State.acceptStart_iter : (State.acceptStart s).iter = 0 := rfl
@[simp] theorem State.acceptStart_toSeen : (State.acceptStart s).toSeen = false := rfl
@[simp] theorem State.acceptStart_gapLat : (State.acceptStart s).gapLat = 0 := rfl
@[simp] theorem State.acceptStart_valid : (State.acceptStart s).valid = false := rfl
@[simp] theorem State.acceptStart_err : (State.acceptStart s).err = errNone := rfl
@[simp] theorem State.acceptStart_done : (State.acceptStart s).done = s.done := rfl
@[simp] theorem State.acceptStart_diagBitStb : (State.acceptStart s).diagBitStb = s.diagBitStb := rfl
@[simp] theorem State.acceptStart_diagGap : (State.acceptStart s).diagGap = s.diagGap := rfl
@[simp] theorem State.acceptStart_diagWidth : (State.acceptStart s).diagWidth = s.diagWidth := rfl
@[simp] theorem State.acceptStart_diagBit : (State.acceptStart s).diagBit = s.diagBit := rfl
@[simp] theorem State.acceptStart_diagBitTo : (State.acceptStart s).diagBitTo = s.diagBitTo := rfl
@[simp] theorem State.acceptStart_diagByteStb : (State.acceptStart s).diagByteStb = s.diagByteStb := rfl
@[simp] theorem State.acceptStart_diagByte : (State.acceptStart s).diagByte = s.diagByte := rfl
@[simp] theorem State.acceptStart_diagByteIdx : (State.acceptStart s).diagByteIdx = s.diagByteIdx := rfl
@[simp] theorem State.acceptStart_params : (State.acceptStart s).params = s.params := rfl
@[simp] theorem State.acceptStart_inputs : (State.acceptStart s).inputs = s.inputs := rfl
@[simp] theorem State.acceptStart_held : (State.acceptStart s).held = s.held := rfl
@[simp] theorem State.acceptStart_edge : (State.acceptStart s).edge = s.edge := rfl
@[simp] theorem State.acceptStart_pins : (State.acceptStart s).pins = s.pins := rfl

/-! ### `State.resetEdge` -/

@[simp] theorem State.resetEdge_st : (State.resetEdge s).st = 0#4 := rfl
@[simp] theorem State.resetEdge_bitcnt : (State.resetEdge s).bitcnt = 0#6 := rfl
@[simp] theorem State.resetEdge_sr : (State.resetEdge s).sr = 0#40 := rfl
@[simp] theorem State.resetEdge_tmr : (State.resetEdge s).tmr = 0 := rfl
@[simp] theorem State.resetEdge_iter : (State.resetEdge s).iter = 0 := rfl
@[simp] theorem State.resetEdge_toSeen : (State.resetEdge s).toSeen = false := rfl
@[simp] theorem State.resetEdge_gapLat : (State.resetEdge s).gapLat = 0 := rfl
@[simp] theorem State.resetEdge_valid : (State.resetEdge s).valid = false := rfl
@[simp] theorem State.resetEdge_err : (State.resetEdge s).err = 0#2 := rfl
@[simp] theorem State.resetEdge_done : (State.resetEdge s).done = false := rfl
@[simp] theorem State.resetEdge_diagBitStb : (State.resetEdge s).diagBitStb = false := rfl
@[simp] theorem State.resetEdge_diagGap : (State.resetEdge s).diagGap = 0 := rfl
@[simp] theorem State.resetEdge_diagWidth : (State.resetEdge s).diagWidth = 0 := rfl
@[simp] theorem State.resetEdge_diagBit : (State.resetEdge s).diagBit = false := rfl
@[simp] theorem State.resetEdge_diagBitTo : (State.resetEdge s).diagBitTo = false := rfl
@[simp] theorem State.resetEdge_diagByteStb : (State.resetEdge s).diagByteStb = false := rfl
@[simp] theorem State.resetEdge_diagByte : (State.resetEdge s).diagByte = 0#8 := rfl
@[simp] theorem State.resetEdge_diagByteIdx : (State.resetEdge s).diagByteIdx = 0#3 := rfl
@[simp] theorem State.resetEdge_params : (State.resetEdge s).params = s.params := rfl
@[simp] theorem State.resetEdge_inputs : (State.resetEdge s).inputs = s.inputs.tail := rfl
@[simp] theorem State.resetEdge_held : (State.resetEdge s).held = s.held := rfl
@[simp] theorem State.resetEdge_edge : (State.resetEdge s).edge = s.edge + 1 := rfl

/-! ### `State.reservedOp` -/

@[simp] theorem State.reservedOp_st : (State.reservedOp s).st = encode .idle := rfl
@[simp] theorem State.reservedOp_bitcnt : (State.reservedOp s).bitcnt = s.bitcnt := rfl
@[simp] theorem State.reservedOp_sr : (State.reservedOp s).sr = s.sr := rfl
@[simp] theorem State.reservedOp_tmr : (State.reservedOp s).tmr = s.tmr := rfl
@[simp] theorem State.reservedOp_iter : (State.reservedOp s).iter = s.iter := rfl
@[simp] theorem State.reservedOp_toSeen : (State.reservedOp s).toSeen = s.toSeen := rfl
@[simp] theorem State.reservedOp_gapLat : (State.reservedOp s).gapLat = s.gapLat := rfl
@[simp] theorem State.reservedOp_valid : (State.reservedOp s).valid = s.valid := rfl
@[simp] theorem State.reservedOp_err : (State.reservedOp s).err = s.err := rfl
@[simp] theorem State.reservedOp_done : (State.reservedOp s).done = s.done := rfl
@[simp] theorem State.reservedOp_diagBitStb : (State.reservedOp s).diagBitStb = s.diagBitStb := rfl
@[simp] theorem State.reservedOp_diagGap : (State.reservedOp s).diagGap = s.diagGap := rfl
@[simp] theorem State.reservedOp_diagWidth : (State.reservedOp s).diagWidth = s.diagWidth := rfl
@[simp] theorem State.reservedOp_diagBit : (State.reservedOp s).diagBit = s.diagBit := rfl
@[simp] theorem State.reservedOp_diagBitTo : (State.reservedOp s).diagBitTo = s.diagBitTo := rfl
@[simp] theorem State.reservedOp_diagByteStb : (State.reservedOp s).diagByteStb = s.diagByteStb := rfl
@[simp] theorem State.reservedOp_diagByte : (State.reservedOp s).diagByte = s.diagByte := rfl
@[simp] theorem State.reservedOp_diagByteIdx : (State.reservedOp s).diagByteIdx = s.diagByteIdx := rfl
@[simp] theorem State.reservedOp_params : (State.reservedOp s).params = s.params := rfl
@[simp] theorem State.reservedOp_inputs : (State.reservedOp s).inputs = s.inputs := rfl
@[simp] theorem State.reservedOp_held : (State.reservedOp s).held = s.held := rfl
@[simp] theorem State.reservedOp_edge : (State.reservedOp s).edge = s.edge := rfl
@[simp] theorem State.reservedOp_pins : (State.reservedOp s).pins = s.pins := rfl

/-! ### `State.recordBit` -/

@[simp] theorem State.recordBit_st (b : Bool) : (State.recordBit b s).st = if s.bitcnt = 39#6 then encode .check else encode .bitGap := rfl
@[simp] theorem State.recordBit_bitcnt (b : Bool) : (State.recordBit b s).bitcnt = s.bitcnt + 1#6 := rfl
@[simp] theorem State.recordBit_sr (b : Bool) : (State.recordBit b s).sr = shiftIn s.sr b := rfl
@[simp] theorem State.recordBit_tmr (b : Bool) : (State.recordBit b s).tmr = s.tmr := rfl
@[simp] theorem State.recordBit_iter (b : Bool) : (State.recordBit b s).iter = s.iter := rfl
@[simp] theorem State.recordBit_toSeen (b : Bool) : (State.recordBit b s).toSeen = s.toSeen := rfl
@[simp] theorem State.recordBit_gapLat (b : Bool) : (State.recordBit b s).gapLat = s.gapLat := rfl
@[simp] theorem State.recordBit_valid (b : Bool) : (State.recordBit b s).valid = s.valid := rfl
@[simp] theorem State.recordBit_err (b : Bool) : (State.recordBit b s).err = s.err := rfl
@[simp] theorem State.recordBit_done (b : Bool) : (State.recordBit b s).done = s.done := rfl
@[simp] theorem State.recordBit_diagBitStb (b : Bool) : (State.recordBit b s).diagBitStb = s.diagBitStb := rfl
@[simp] theorem State.recordBit_diagGap (b : Bool) : (State.recordBit b s).diagGap = s.diagGap := rfl
@[simp] theorem State.recordBit_diagWidth (b : Bool) : (State.recordBit b s).diagWidth = s.diagWidth := rfl
@[simp] theorem State.recordBit_diagBit (b : Bool) : (State.recordBit b s).diagBit = s.diagBit := rfl
@[simp] theorem State.recordBit_diagBitTo (b : Bool) : (State.recordBit b s).diagBitTo = s.diagBitTo := rfl
@[simp] theorem State.recordBit_diagByteStb (b : Bool) : (State.recordBit b s).diagByteStb = s.diagByteStb := rfl
@[simp] theorem State.recordBit_diagByte (b : Bool) : (State.recordBit b s).diagByte = s.diagByte := rfl
@[simp] theorem State.recordBit_diagByteIdx (b : Bool) : (State.recordBit b s).diagByteIdx = s.diagByteIdx := rfl
@[simp] theorem State.recordBit_params (b : Bool) : (State.recordBit b s).params = s.params := rfl
@[simp] theorem State.recordBit_inputs (b : Bool) : (State.recordBit b s).inputs = s.inputs := rfl
@[simp] theorem State.recordBit_held (b : Bool) : (State.recordBit b s).held = s.held := rfl
@[simp] theorem State.recordBit_edge (b : Bool) : (State.recordBit b s).edge = s.edge := rfl
@[simp] theorem State.recordBit_pins (b : Bool) : (State.recordBit b s).pins = s.pins := rfl

/-! ### `State.diagBitRecord` -/

@[simp] theorem State.diagBitRecord_st (b : Bool) (t : Bool) (w : Nat) : (State.diagBitRecord b t w s).st = s.st := rfl
@[simp] theorem State.diagBitRecord_bitcnt (b : Bool) (t : Bool) (w : Nat) : (State.diagBitRecord b t w s).bitcnt = s.bitcnt := rfl
@[simp] theorem State.diagBitRecord_sr (b : Bool) (t : Bool) (w : Nat) : (State.diagBitRecord b t w s).sr = s.sr := rfl
@[simp] theorem State.diagBitRecord_tmr (b : Bool) (t : Bool) (w : Nat) : (State.diagBitRecord b t w s).tmr = s.tmr := rfl
@[simp] theorem State.diagBitRecord_iter (b : Bool) (t : Bool) (w : Nat) : (State.diagBitRecord b t w s).iter = s.iter := rfl
@[simp] theorem State.diagBitRecord_toSeen (b : Bool) (t : Bool) (w : Nat) : (State.diagBitRecord b t w s).toSeen = s.toSeen := rfl
@[simp] theorem State.diagBitRecord_gapLat (b : Bool) (t : Bool) (w : Nat) : (State.diagBitRecord b t w s).gapLat = s.gapLat := rfl
@[simp] theorem State.diagBitRecord_valid (b : Bool) (t : Bool) (w : Nat) : (State.diagBitRecord b t w s).valid = s.valid := rfl
@[simp] theorem State.diagBitRecord_err (b : Bool) (t : Bool) (w : Nat) : (State.diagBitRecord b t w s).err = s.err := rfl
@[simp] theorem State.diagBitRecord_done (b : Bool) (t : Bool) (w : Nat) : (State.diagBitRecord b t w s).done = s.done := rfl
@[simp] theorem State.diagBitRecord_diagBitStb (b : Bool) (t : Bool) (w : Nat) : (State.diagBitRecord b t w s).diagBitStb = s.pins.diagEn := rfl
@[simp] theorem State.diagBitRecord_diagGap (b : Bool) (t : Bool) (w : Nat) : (State.diagBitRecord b t w s).diagGap = s.gapLat := rfl
@[simp] theorem State.diagBitRecord_diagWidth (b : Bool) (t : Bool) (w : Nat) : (State.diagBitRecord b t w s).diagWidth = w := rfl
@[simp] theorem State.diagBitRecord_diagBit (b : Bool) (t : Bool) (w : Nat) : (State.diagBitRecord b t w s).diagBit = b := rfl
@[simp] theorem State.diagBitRecord_diagBitTo (b : Bool) (t : Bool) (w : Nat) : (State.diagBitRecord b t w s).diagBitTo = t := rfl
@[simp] theorem State.diagBitRecord_diagByteStb (b : Bool) (t : Bool) (w : Nat) : (State.diagBitRecord b t w s).diagByteStb = s.diagByteStb := rfl
@[simp] theorem State.diagBitRecord_diagByte (b : Bool) (t : Bool) (w : Nat) : (State.diagBitRecord b t w s).diagByte = s.diagByte := rfl
@[simp] theorem State.diagBitRecord_diagByteIdx (b : Bool) (t : Bool) (w : Nat) : (State.diagBitRecord b t w s).diagByteIdx = s.diagByteIdx := rfl
@[simp] theorem State.diagBitRecord_params (b : Bool) (t : Bool) (w : Nat) : (State.diagBitRecord b t w s).params = s.params := rfl
@[simp] theorem State.diagBitRecord_inputs (b : Bool) (t : Bool) (w : Nat) : (State.diagBitRecord b t w s).inputs = s.inputs := rfl
@[simp] theorem State.diagBitRecord_held (b : Bool) (t : Bool) (w : Nat) : (State.diagBitRecord b t w s).held = s.held := rfl
@[simp] theorem State.diagBitRecord_edge (b : Bool) (t : Bool) (w : Nat) : (State.diagBitRecord b t w s).edge = s.edge := rfl
@[simp] theorem State.diagBitRecord_pins (b : Bool) (t : Bool) (w : Nat) : (State.diagBitRecord b t w s).pins = s.pins := rfl

/-! ### `State.diagByteRecord` -/

@[simp] theorem State.diagByteRecord_st (x : Frame) (k : BitCount) (b : Bool) : (State.diagByteRecord x k b s).st = s.st := rfl
@[simp] theorem State.diagByteRecord_bitcnt (x : Frame) (k : BitCount) (b : Bool) : (State.diagByteRecord x k b s).bitcnt = s.bitcnt := rfl
@[simp] theorem State.diagByteRecord_sr (x : Frame) (k : BitCount) (b : Bool) : (State.diagByteRecord x k b s).sr = s.sr := rfl
@[simp] theorem State.diagByteRecord_tmr (x : Frame) (k : BitCount) (b : Bool) : (State.diagByteRecord x k b s).tmr = s.tmr := rfl
@[simp] theorem State.diagByteRecord_iter (x : Frame) (k : BitCount) (b : Bool) : (State.diagByteRecord x k b s).iter = s.iter := rfl
@[simp] theorem State.diagByteRecord_toSeen (x : Frame) (k : BitCount) (b : Bool) : (State.diagByteRecord x k b s).toSeen = s.toSeen := rfl
@[simp] theorem State.diagByteRecord_gapLat (x : Frame) (k : BitCount) (b : Bool) : (State.diagByteRecord x k b s).gapLat = s.gapLat := rfl
@[simp] theorem State.diagByteRecord_valid (x : Frame) (k : BitCount) (b : Bool) : (State.diagByteRecord x k b s).valid = s.valid := rfl
@[simp] theorem State.diagByteRecord_err (x : Frame) (k : BitCount) (b : Bool) : (State.diagByteRecord x k b s).err = s.err := rfl
@[simp] theorem State.diagByteRecord_done (x : Frame) (k : BitCount) (b : Bool) : (State.diagByteRecord x k b s).done = s.done := rfl
@[simp] theorem State.diagByteRecord_diagBitStb (x : Frame) (k : BitCount) (b : Bool) : (State.diagByteRecord x k b s).diagBitStb = s.diagBitStb := rfl
@[simp] theorem State.diagByteRecord_diagGap (x : Frame) (k : BitCount) (b : Bool) : (State.diagByteRecord x k b s).diagGap = s.diagGap := rfl
@[simp] theorem State.diagByteRecord_diagWidth (x : Frame) (k : BitCount) (b : Bool) : (State.diagByteRecord x k b s).diagWidth = s.diagWidth := rfl
@[simp] theorem State.diagByteRecord_diagBit (x : Frame) (k : BitCount) (b : Bool) : (State.diagByteRecord x k b s).diagBit = s.diagBit := rfl
@[simp] theorem State.diagByteRecord_diagBitTo (x : Frame) (k : BitCount) (b : Bool) : (State.diagByteRecord x k b s).diagBitTo = s.diagBitTo := rfl
@[simp] theorem State.diagByteRecord_diagByteStb (x : Frame) (k : BitCount) (b : Bool) : (State.diagByteRecord x k b s).diagByteStb = s.pins.diagEn := rfl
@[simp] theorem State.diagByteRecord_diagByte (x : Frame) (k : BitCount) (b : Bool) : (State.diagByteRecord x k b s).diagByte = shiftInByte (x.setWidth 8) b := rfl
@[simp] theorem State.diagByteRecord_diagByteIdx (x : Frame) (k : BitCount) (b : Bool) : (State.diagByteRecord x k b s).diagByteIdx = byteIndex k := rfl
@[simp] theorem State.diagByteRecord_params (x : Frame) (k : BitCount) (b : Bool) : (State.diagByteRecord x k b s).params = s.params := rfl
@[simp] theorem State.diagByteRecord_inputs (x : Frame) (k : BitCount) (b : Bool) : (State.diagByteRecord x k b s).inputs = s.inputs := rfl
@[simp] theorem State.diagByteRecord_held (x : Frame) (k : BitCount) (b : Bool) : (State.diagByteRecord x k b s).held = s.held := rfl
@[simp] theorem State.diagByteRecord_edge (x : Frame) (k : BitCount) (b : Bool) : (State.diagByteRecord x k b s).edge = s.edge := rfl
@[simp] theorem State.diagByteRecord_pins (x : Frame) (k : BitCount) (b : Bool) : (State.diagByteRecord x k b s).pins = s.pins := rfl

/-! ### `State.checkOp` -/

@[simp] theorem State.checkOp_st : (State.checkOp s).st = encode .idle := rfl
@[simp] theorem State.checkOp_bitcnt : (State.checkOp s).bitcnt = s.bitcnt := rfl
@[simp] theorem State.checkOp_sr : (State.checkOp s).sr = s.sr := rfl
@[simp] theorem State.checkOp_tmr : (State.checkOp s).tmr = s.tmr := rfl
@[simp] theorem State.checkOp_iter : (State.checkOp s).iter = s.iter := rfl
@[simp] theorem State.checkOp_toSeen : (State.checkOp s).toSeen = s.toSeen := rfl
@[simp] theorem State.checkOp_gapLat : (State.checkOp s).gapLat = s.gapLat := rfl
@[simp] theorem State.checkOp_valid : (State.checkOp s).valid = verdictValid s.params s.sr s.toSeen := rfl
@[simp] theorem State.checkOp_err : (State.checkOp s).err = verdictErr s.params s.sr s.toSeen := rfl
@[simp] theorem State.checkOp_done : (State.checkOp s).done = true := rfl
@[simp] theorem State.checkOp_diagBitStb : (State.checkOp s).diagBitStb = s.diagBitStb := rfl
@[simp] theorem State.checkOp_diagGap : (State.checkOp s).diagGap = s.diagGap := rfl
@[simp] theorem State.checkOp_diagWidth : (State.checkOp s).diagWidth = s.diagWidth := rfl
@[simp] theorem State.checkOp_diagBit : (State.checkOp s).diagBit = s.diagBit := rfl
@[simp] theorem State.checkOp_diagBitTo : (State.checkOp s).diagBitTo = s.diagBitTo := rfl
@[simp] theorem State.checkOp_diagByteStb : (State.checkOp s).diagByteStb = s.diagByteStb := rfl
@[simp] theorem State.checkOp_diagByte : (State.checkOp s).diagByte = s.diagByte := rfl
@[simp] theorem State.checkOp_diagByteIdx : (State.checkOp s).diagByteIdx = s.diagByteIdx := rfl
@[simp] theorem State.checkOp_params : (State.checkOp s).params = s.params := rfl
@[simp] theorem State.checkOp_inputs : (State.checkOp s).inputs = s.inputs := rfl
@[simp] theorem State.checkOp_held : (State.checkOp s).held = s.held := rfl
@[simp] theorem State.checkOp_edge : (State.checkOp s).edge = s.edge := rfl
@[simp] theorem State.checkOp_pins : (State.checkOp s).pins = s.pins := rfl

/-! ### `State.edgeFrame` -/

@[simp] theorem State.edgeFrame_st : (State.edgeFrame s).st = s.st := rfl
@[simp] theorem State.edgeFrame_bitcnt : (State.edgeFrame s).bitcnt = s.bitcnt := rfl
@[simp] theorem State.edgeFrame_sr : (State.edgeFrame s).sr = s.sr := rfl
@[simp] theorem State.edgeFrame_tmr : (State.edgeFrame s).tmr = s.tmr := rfl
@[simp] theorem State.edgeFrame_iter : (State.edgeFrame s).iter = s.iter := rfl
@[simp] theorem State.edgeFrame_toSeen : (State.edgeFrame s).toSeen = s.toSeen := rfl
@[simp] theorem State.edgeFrame_gapLat : (State.edgeFrame s).gapLat = s.gapLat := rfl
@[simp] theorem State.edgeFrame_valid : (State.edgeFrame s).valid = s.valid := rfl
@[simp] theorem State.edgeFrame_err : (State.edgeFrame s).err = s.err := rfl
@[simp] theorem State.edgeFrame_done : (State.edgeFrame s).done = false := rfl
@[simp] theorem State.edgeFrame_diagBitStb : (State.edgeFrame s).diagBitStb = false := rfl
@[simp] theorem State.edgeFrame_diagGap : (State.edgeFrame s).diagGap = s.diagGap := rfl
@[simp] theorem State.edgeFrame_diagWidth : (State.edgeFrame s).diagWidth = s.diagWidth := rfl
@[simp] theorem State.edgeFrame_diagBit : (State.edgeFrame s).diagBit = s.diagBit := rfl
@[simp] theorem State.edgeFrame_diagBitTo : (State.edgeFrame s).diagBitTo = s.diagBitTo := rfl
@[simp] theorem State.edgeFrame_diagByteStb : (State.edgeFrame s).diagByteStb = false := rfl
@[simp] theorem State.edgeFrame_diagByte : (State.edgeFrame s).diagByte = s.diagByte := rfl
@[simp] theorem State.edgeFrame_diagByteIdx : (State.edgeFrame s).diagByteIdx = s.diagByteIdx := rfl
@[simp] theorem State.edgeFrame_params : (State.edgeFrame s).params = s.params := rfl
@[simp] theorem State.edgeFrame_inputs : (State.edgeFrame s).inputs = s.inputs.tail := rfl
@[simp] theorem State.edgeFrame_held : (State.edgeFrame s).held = s.held := rfl
@[simp] theorem State.edgeFrame_edge : (State.edgeFrame s).edge = s.edge + 1 := rfl

/-! ### `State.restartCounters` -/

@[simp] theorem State.restartCounters_st (n : Nat) : (State.restartCounters n s).st = s.st := rfl
@[simp] theorem State.restartCounters_bitcnt (n : Nat) : (State.restartCounters n s).bitcnt = s.bitcnt := rfl
@[simp] theorem State.restartCounters_sr (n : Nat) : (State.restartCounters n s).sr = s.sr := rfl
@[simp] theorem State.restartCounters_tmr (n : Nat) : (State.restartCounters n s).tmr = n := rfl
@[simp] theorem State.restartCounters_iter (n : Nat) : (State.restartCounters n s).iter = n := rfl
@[simp] theorem State.restartCounters_toSeen (n : Nat) : (State.restartCounters n s).toSeen = s.toSeen := rfl
@[simp] theorem State.restartCounters_gapLat (n : Nat) : (State.restartCounters n s).gapLat = s.gapLat := rfl
@[simp] theorem State.restartCounters_valid (n : Nat) : (State.restartCounters n s).valid = s.valid := rfl
@[simp] theorem State.restartCounters_err (n : Nat) : (State.restartCounters n s).err = s.err := rfl
@[simp] theorem State.restartCounters_done (n : Nat) : (State.restartCounters n s).done = s.done := rfl
@[simp] theorem State.restartCounters_diagBitStb (n : Nat) : (State.restartCounters n s).diagBitStb = s.diagBitStb := rfl
@[simp] theorem State.restartCounters_diagGap (n : Nat) : (State.restartCounters n s).diagGap = s.diagGap := rfl
@[simp] theorem State.restartCounters_diagWidth (n : Nat) : (State.restartCounters n s).diagWidth = s.diagWidth := rfl
@[simp] theorem State.restartCounters_diagBit (n : Nat) : (State.restartCounters n s).diagBit = s.diagBit := rfl
@[simp] theorem State.restartCounters_diagBitTo (n : Nat) : (State.restartCounters n s).diagBitTo = s.diagBitTo := rfl
@[simp] theorem State.restartCounters_diagByteStb (n : Nat) : (State.restartCounters n s).diagByteStb = s.diagByteStb := rfl
@[simp] theorem State.restartCounters_diagByte (n : Nat) : (State.restartCounters n s).diagByte = s.diagByte := rfl
@[simp] theorem State.restartCounters_diagByteIdx (n : Nat) : (State.restartCounters n s).diagByteIdx = s.diagByteIdx := rfl
@[simp] theorem State.restartCounters_params (n : Nat) : (State.restartCounters n s).params = s.params := rfl
@[simp] theorem State.restartCounters_inputs (n : Nat) : (State.restartCounters n s).inputs = s.inputs := rfl
@[simp] theorem State.restartCounters_held (n : Nat) : (State.restartCounters n s).held = s.held := rfl
@[simp] theorem State.restartCounters_edge (n : Nat) : (State.restartCounters n s).edge = s.edge := rfl
@[simp] theorem State.restartCounters_pins (n : Nat) : (State.restartCounters n s).pins = s.pins := rfl

/-! ### `State.latchGap` -/

@[simp] theorem State.latchGap_st (gap : Nat) : (State.latchGap gap s).st = s.st := rfl
@[simp] theorem State.latchGap_bitcnt (gap : Nat) : (State.latchGap gap s).bitcnt = s.bitcnt := rfl
@[simp] theorem State.latchGap_sr (gap : Nat) : (State.latchGap gap s).sr = s.sr := rfl
@[simp] theorem State.latchGap_tmr (gap : Nat) : (State.latchGap gap s).tmr = s.tmr := rfl
@[simp] theorem State.latchGap_iter (gap : Nat) : (State.latchGap gap s).iter = s.iter := rfl
@[simp] theorem State.latchGap_toSeen (gap : Nat) : (State.latchGap gap s).toSeen = s.toSeen := rfl
@[simp] theorem State.latchGap_gapLat (gap : Nat) : (State.latchGap gap s).gapLat = gap := rfl
@[simp] theorem State.latchGap_valid (gap : Nat) : (State.latchGap gap s).valid = s.valid := rfl
@[simp] theorem State.latchGap_err (gap : Nat) : (State.latchGap gap s).err = s.err := rfl
@[simp] theorem State.latchGap_done (gap : Nat) : (State.latchGap gap s).done = s.done := rfl
@[simp] theorem State.latchGap_diagBitStb (gap : Nat) : (State.latchGap gap s).diagBitStb = s.diagBitStb := rfl
@[simp] theorem State.latchGap_diagGap (gap : Nat) : (State.latchGap gap s).diagGap = s.diagGap := rfl
@[simp] theorem State.latchGap_diagWidth (gap : Nat) : (State.latchGap gap s).diagWidth = s.diagWidth := rfl
@[simp] theorem State.latchGap_diagBit (gap : Nat) : (State.latchGap gap s).diagBit = s.diagBit := rfl
@[simp] theorem State.latchGap_diagBitTo (gap : Nat) : (State.latchGap gap s).diagBitTo = s.diagBitTo := rfl
@[simp] theorem State.latchGap_diagByteStb (gap : Nat) : (State.latchGap gap s).diagByteStb = s.diagByteStb := rfl
@[simp] theorem State.latchGap_diagByte (gap : Nat) : (State.latchGap gap s).diagByte = s.diagByte := rfl
@[simp] theorem State.latchGap_diagByteIdx (gap : Nat) : (State.latchGap gap s).diagByteIdx = s.diagByteIdx := rfl
@[simp] theorem State.latchGap_params (gap : Nat) : (State.latchGap gap s).params = s.params := rfl
@[simp] theorem State.latchGap_inputs (gap : Nat) : (State.latchGap gap s).inputs = s.inputs := rfl
@[simp] theorem State.latchGap_held (gap : Nat) : (State.latchGap gap s).held = s.held := rfl
@[simp] theorem State.latchGap_edge (gap : Nat) : (State.latchGap gap s).edge = s.edge := rfl
@[simp] theorem State.latchGap_pins (gap : Nat) : (State.latchGap gap s).pins = s.pins := rfl

/-! ### `State.endStartLow` -/

@[simp] theorem State.endStartLow_st : (State.endStartLow s).st = encode .startHigh := rfl
@[simp] theorem State.endStartLow_bitcnt : (State.endStartLow s).bitcnt = s.bitcnt := rfl
@[simp] theorem State.endStartLow_sr : (State.endStartLow s).sr = s.sr := rfl
@[simp] theorem State.endStartLow_tmr : (State.endStartLow s).tmr = 0 := rfl
@[simp] theorem State.endStartLow_iter : (State.endStartLow s).iter = s.iter := rfl
@[simp] theorem State.endStartLow_toSeen : (State.endStartLow s).toSeen = s.toSeen := rfl
@[simp] theorem State.endStartLow_gapLat : (State.endStartLow s).gapLat = s.gapLat := rfl
@[simp] theorem State.endStartLow_valid : (State.endStartLow s).valid = s.valid := rfl
@[simp] theorem State.endStartLow_err : (State.endStartLow s).err = s.err := rfl
@[simp] theorem State.endStartLow_done : (State.endStartLow s).done = s.done := rfl
@[simp] theorem State.endStartLow_diagBitStb : (State.endStartLow s).diagBitStb = s.diagBitStb := rfl
@[simp] theorem State.endStartLow_diagGap : (State.endStartLow s).diagGap = s.diagGap := rfl
@[simp] theorem State.endStartLow_diagWidth : (State.endStartLow s).diagWidth = s.diagWidth := rfl
@[simp] theorem State.endStartLow_diagBit : (State.endStartLow s).diagBit = s.diagBit := rfl
@[simp] theorem State.endStartLow_diagBitTo : (State.endStartLow s).diagBitTo = s.diagBitTo := rfl
@[simp] theorem State.endStartLow_diagByteStb : (State.endStartLow s).diagByteStb = s.diagByteStb := rfl
@[simp] theorem State.endStartLow_diagByte : (State.endStartLow s).diagByte = s.diagByte := rfl
@[simp] theorem State.endStartLow_diagByteIdx : (State.endStartLow s).diagByteIdx = s.diagByteIdx := rfl
@[simp] theorem State.endStartLow_params : (State.endStartLow s).params = s.params := rfl
@[simp] theorem State.endStartLow_inputs : (State.endStartLow s).inputs = s.inputs := rfl
@[simp] theorem State.endStartLow_held : (State.endStartLow s).held = s.held := rfl
@[simp] theorem State.endStartLow_edge : (State.endStartLow s).edge = s.edge := rfl
@[simp] theorem State.endStartLow_pins : (State.endStartLow s).pins = s.pins := rfl

end Sys2Proof.Machine
end

