-- ==== Sys2Proof/Laws/Ops.lean ====
section
/-! SUPPORT. What each shared operation can do, said once: the saturating counters, the pins, the conditional
operations by cases, and the shift, slice and code helpers. -/

namespace Sys2Proof.Machine

/-! ### Codes -/

@[simp] theorem encode_idle : encode .idle = 0#4 := rfl
@[simp] theorem encode_startLow : encode .startLow = 1#4 := rfl
@[simp] theorem encode_startHigh : encode .startHigh = 2#4 := rfl
@[simp] theorem encode_hsWaitRel : encode .hsWaitRel = 3#4 := rfl
@[simp] theorem encode_hsWaitAckl : encode .hsWaitAckl = 4#4 := rfl
@[simp] theorem encode_hsWaitAckh : encode .hsWaitAckh = 5#4 := rfl
@[simp] theorem encode_bitGap : encode .bitGap = 6#4 := rfl
@[simp] theorem encode_bitHigh : encode .bitHigh = 7#4 := rfl
@[simp] theorem encode_check : encode .check = 8#4 := rfl

@[simp] theorem errNone_eq : errNone = 0#2 := rfl
@[simp] theorem errHandshake_eq : errHandshake = 1#2 := rfl
@[simp] theorem errBitTimeout_eq : errBitTimeout = 2#2 := rfl
@[simp] theorem errChecksum_eq : errChecksum = 3#2 := rfl

/-! ### Saturating counters (00_scope.md R12) -/

theorem incT_le (p : Params) (x : Nat) : incT p x ≤ p.tmrMax := Nat.min_le_right _ _

theorem incI_le (p : Params) (x : Nat) : incI p x ≤ p.iterMax := Nat.min_le_right _ _

theorem incT_of_lt {p : Params} {x : Nat} (h : x < p.tmrMax) : incT p x = x + 1 := by
  simp only [incT]; omega

theorem incI_of_lt {p : Params} {x : Nat} (h : x < p.iterMax) : incI p x = x + 1 := by
  simp only [incI]; omega

/-! ### The parameter constraints (R10, R11) -/

theorem Params.ok_startLow {p : Params} (h : p.ok = true) : 1 ≤ p.startLowTicks ∧ p.startLowTicks ≤ p.tmrMax := by
  simp only [Params.ok, Params.startLowFits, Bool.and_eq_true, decide_eq_true_eq] at h
  exact h.1.1.1.1

theorem Params.ok_startHigh {p : Params} (h : p.ok = true) :
    1 ≤ p.startHighTicks ∧ p.startHighTicks ≤ p.tmrMax := by
  simp only [Params.ok, Params.startHighFits, Bool.and_eq_true, decide_eq_true_eq] at h
  exact h.1.1.1.2

theorem Params.ok_threshold {p : Params} (h : p.ok = true) :
    1 ≤ p.thresholdTicks ∧ p.thresholdTicks ≤ p.bitCeil := by
  simp only [Params.ok, Params.thresholdFits, Bool.and_eq_true, decide_eq_true_eq] at h
  exact h.1.1.2

theorem Params.ok_ceil {p : Params} (h : p.ok = true) : p.bitCeil ≤ p.iterMax ∧ p.bitCeil + 1 ≤ p.tmrMax := by
  simp only [Params.ok, Params.ceilFits, Bool.and_eq_true, decide_eq_true_eq] at h
  exact h.1.2

theorem Params.ok_cap {p : Params} (h : p.ok = true) {c : Nat} (hc : p.hsWaitCap = some c) :
    1 ≤ c ∧ c ≤ p.iterMax := by
  simp only [Params.ok, Params.capFits, Bool.and_eq_true, hc, decide_eq_true_eq] at h
  exact h.2

/-- The constraints of R10 and R11, written out. -/
theorem Params.ok_iff (p : Params) : p.ok = true ↔
    1 ≤ p.startLowTicks ∧ p.startLowTicks ≤ p.tmrMax ∧ 1 ≤ p.startHighTicks ∧ p.startHighTicks ≤ p.tmrMax ∧
    1 ≤ p.thresholdTicks ∧ p.thresholdTicks ≤ p.bitCeil ∧ p.bitCeil ≤ p.iterMax ∧ p.bitCeil + 1 ≤ p.tmrMax ∧
    ∀ c, p.hsWaitCap = some c → 1 ≤ c ∧ c ≤ p.iterMax := by
  cases h : p.hsWaitCap <;> simp only [Params.ok, Params.startLowFits, Params.startHighFits, Params.thresholdFits,
    Params.ceilFits, Params.capFits, h, Bool.and_eq_true, decide_eq_true_eq] <;> simp [and_assoc]

/-! ### Pins -/

theorem State.pins_of_inputs {s : State} {x : Inputs} {xs : List Inputs} (h : s.inputs = x :: xs) : s.pins = x := by
  simp [State.pins, h]

/-- Past the last entry of the queue a held level is the level of every edge (30_encoding.md R70, `H*` and `L*`). -/
theorem State.pins_of_held {s : State} {x : Inputs} (hi : s.inputs = []) (hh : s.held = some x) : s.pins = x := by
  simp [State.pins, hi, hh]

@[simp] theorem linePins_rst (d level : Bool) : (linePins d level).rst = false := rfl
@[simp] theorem linePins_start (d level : Bool) : (linePins d level).start = false := rfl
@[simp] theorem linePins_lineIn (d level : Bool) : (linePins d level).lineIn = level := rfl
@[simp] theorem linePins_diagEn (d level : Bool) : (linePins d level).diagEn = d := rfl

/-- What the next edge reads when `j` samples of a waveform have been read (R70): sample `j`, be it a token's or the held
level's. -/
theorem State.pins_of_waveform {s : State} {w : Waveform} {d level : Bool} {j : Nat}
    (hi : s.inputs = (lineInputs d (waveSamples w.tokens)).drop j) (hh : s.held = w.heldLevel.map (linePins d))
    (hw : w.sample j = some level) : s.pins = linePins d level := by
  rw [State.pins, hi, hh, List.headD_eq_head?_getD, List.head?_drop, lineInputs, List.getElem?_map]
  cases h : (waveSamples w.tokens)[j]? <;> simp_all [Waveform.sample]

theorem State.lineRead_eq (s : State) : s.lineRead = s.pins.lineIn := rfl

theorem State.fetchCode_eq (s : State) : s.fetchCode = s.st := rfl

/-! ### The cap (40_handshake.md R80 to R83) -/

theorem State.capReached_iff (s : State) :
    s.capReached = true ↔ ∃ c, s.params.hsWaitCap = some c ∧ c ≤ s.iter := by
  cases h : s.params.hsWaitCap <;> simp [State.capReached, h]

/-! ### The conditional operations, by cases -/

/-- One edge of a handshake wait does exactly one of three things (R79 to R83). -/
theorem State.handshakeWait_cases (level : Bool) (next : Instr) (s : State) :
    (s.pins.lineIn ≠ level ∧ s.handshakeWait level next = s.enterWait next 1) ∨
    (s.pins.lineIn = level ∧ s.capReached = true ∧ s.handshakeWait level next = s.raiseHandshakeTimeout) ∨
    (s.pins.lineIn = level ∧ s.capReached = false ∧ s.handshakeWait level next = s.countSample) := by
  unfold State.handshakeWait State.lineRead
  by_cases h : s.pins.lineIn = level
  · cases hc : s.capReached <;> simp [h]
  · simp [h]

theorem State.idleOp_cases (s : State) :
    (s.pins.start = true ∧ s.idleOp = s.acceptStart) ∨ (s.pins.start = false ∧ s.idleOp = s) := by
  cases h : s.pins.start <;> simp [State.idleOp, h]

theorem State.startLowOp_cases (s : State) :
    (s.params.startLowTicks - 1 ≤ s.tmr ∧ s.startLowOp = s.endStartLow) ∨
    (s.tmr < s.params.startLowTicks - 1 ∧ s.startLowOp = s.countPeriod) := by
  by_cases h : s.params.startLowTicks - 1 ≤ s.tmr
  · exact .inl ⟨h, if_pos h⟩
  · exact .inr ⟨by omega, if_neg h⟩

theorem State.startHighOp_cases (s : State) :
    (s.params.startHighTicks - 1 ≤ s.tmr ∧ s.startHighOp = s.enterWait .hsWaitRel 0) ∨
    (s.tmr < s.params.startHighTicks - 1 ∧ s.startHighOp = s.countPeriod) := by
  by_cases h : s.params.startHighTicks - 1 ≤ s.tmr
  · exact .inl ⟨h, if_pos h⟩
  · exact .inr ⟨by omega, if_neg h⟩

theorem State.bitGapOp_cases (s : State) :
    (s.pins.lineIn = true ∧ s.bitGapOp = (s.enterWait .bitHigh 1).latchGap s.tmr) ∨
    (s.pins.lineIn = false ∧ s.bitGapOp = s.countSample) := by
  cases h : s.pins.lineIn <;> simp [State.bitGapOp, State.lineRead, h]

theorem State.bitHighOp_cases (s : State) :
    (s.pins.lineIn = true ∧ s.iter < s.params.bitCeil ∧ s.bitHighOp = s.countSample) ∨
    (s.pins.lineIn = true ∧ s.params.bitCeil ≤ s.iter ∧
      s.bitHighOp = (s.completeBit false true (incT s.params s.tmr)).markBitTimeout.restartCounters 0) ∨
    (s.pins.lineIn = false ∧
      s.bitHighOp = (s.completeBit (classify s.params s.tmr) false s.tmr).restartCounters 1) := by
  cases h : s.pins.lineIn
  · simp [State.bitHighOp, State.lineRead, h]
  · by_cases hc : s.iter < s.params.bitCeil
    · simp [State.bitHighOp, State.lineRead, h, hc]
    · have : s.params.bitCeil ≤ s.iter := by omega
      simp [State.bitHighOp, State.lineRead, h, hc, this]

/-- Where control goes after a completed bit (41_bit_decoder.md R102). -/
theorem State.recordBit_st_cases (b : Bool) (s : State) :
    (s.bitcnt = 39#6 ∧ (s.recordBit b).st = 8#4) ∨ (s.bitcnt ≠ 39#6 ∧ (s.recordBit b).st = 6#4) := by
  by_cases h : s.bitcnt = 39#6 <;> simp [h]

/-! ### `CompleteBit` (41_bit_decoder.md R102), field by field -/

variable (b t : Bool) (w : Nat) (s : State)

@[simp] theorem State.completeBit_sr : (s.completeBit b t w).sr = shiftIn s.sr b := by
  unfold State.completeBit; split <;> rfl
@[simp] theorem State.completeBit_bitcnt : (s.completeBit b t w).bitcnt = s.bitcnt + 1#6 := by
  unfold State.completeBit; split <;> rfl
@[simp] theorem State.completeBit_st :
    (s.completeBit b t w).st = if s.bitcnt = 39#6 then 8#4 else 6#4 := by
  unfold State.completeBit; split <;> rfl
@[simp] theorem State.completeBit_tmr : (s.completeBit b t w).tmr = s.tmr := by
  unfold State.completeBit; split <;> rfl
@[simp] theorem State.completeBit_iter : (s.completeBit b t w).iter = s.iter := by
  unfold State.completeBit; split <;> rfl
@[simp] theorem State.completeBit_toSeen : (s.completeBit b t w).toSeen = s.toSeen := by
  unfold State.completeBit; split <;> rfl
@[simp] theorem State.completeBit_gapLat : (s.completeBit b t w).gapLat = s.gapLat := by
  unfold State.completeBit; split <;> rfl
@[simp] theorem State.completeBit_valid : (s.completeBit b t w).valid = s.valid := by
  unfold State.completeBit; split <;> rfl
@[simp] theorem State.completeBit_err : (s.completeBit b t w).err = s.err := by
  unfold State.completeBit; split <;> rfl
@[simp] theorem State.completeBit_done : (s.completeBit b t w).done = s.done := by
  unfold State.completeBit; split <;> rfl
@[simp] theorem State.completeBit_diagBitStb : (s.completeBit b t w).diagBitStb = s.pins.diagEn := by
  unfold State.completeBit; split <;> rfl
@[simp] theorem State.completeBit_diagGap : (s.completeBit b t w).diagGap = s.gapLat := by
  unfold State.completeBit; split <;> rfl
@[simp] theorem State.completeBit_diagWidth : (s.completeBit b t w).diagWidth = w := by
  unfold State.completeBit; split <;> rfl
@[simp] theorem State.completeBit_diagBit : (s.completeBit b t w).diagBit = b := by
  unfold State.completeBit; split <;> rfl
@[simp] theorem State.completeBit_diagBitTo : (s.completeBit b t w).diagBitTo = t := by
  unfold State.completeBit; split <;> rfl
@[simp] theorem State.completeBit_diagByteStb : (s.completeBit b t w).diagByteStb =
    if bitIndex s.bitcnt = 7#3 then s.pins.diagEn else s.diagByteStb := by
  unfold State.completeBit; split <;> rfl
@[simp] theorem State.completeBit_diagByte : (s.completeBit b t w).diagByte =
    if bitIndex s.bitcnt = 7#3 then shiftInByte (s.sr.setWidth 8) b else s.diagByte := by
  unfold State.completeBit; split <;> rfl
@[simp] theorem State.completeBit_diagByteIdx : (s.completeBit b t w).diagByteIdx =
    if bitIndex s.bitcnt = 7#3 then byteIndex s.bitcnt else s.diagByteIdx := by
  unfold State.completeBit; split <;> rfl
@[simp] theorem State.completeBit_params : (s.completeBit b t w).params = s.params := by
  unfold State.completeBit; split <;> rfl
@[simp] theorem State.completeBit_inputs : (s.completeBit b t w).inputs = s.inputs := by
  unfold State.completeBit; split <;> rfl
@[simp] theorem State.completeBit_held : (s.completeBit b t w).held = s.held := by
  unfold State.completeBit; split <;> rfl
@[simp] theorem State.completeBit_edge : (s.completeBit b t w).edge = s.edge := by
  unfold State.completeBit; split <;> rfl

/-! ### Shifts and slices -/

theorem shiftIn_toNat (x : Frame) (b : Bool) : (shiftIn x b).toNat = (2 * x.toNat + b.toNat) % 2 ^ 40 := by
  have hx := x.isLt
  cases b <;> simp [shiftIn, BitVec.toNat_concat, BitVec.toNat_setWidth] <;> omega

theorem byteIndex_toNat (n : BitCount) : (byteIndex n).toNat = n.toNat / 8 := by
  have hn := n.isLt
  simp only [byteIndex, BitVec.extractLsb'_toNat, Nat.shiftRight_eq_div_pow]
  omega

theorem bitIndex_toNat (n : BitCount) : (bitIndex n).toNat = n.toNat % 8 := by
  simp [bitIndex, BitVec.extractLsb'_toNat]

/-- A shift into the frame, over the words (10_state.md R20). -/
theorem shiftIn_eq (x : Frame) (b : Bool) : shiftIn x b = x <<< 1 ||| (BitVec.ofBool b).setWidth 40 := by
  apply BitVec.eq_of_getLsbD_eq
  intro i hi
  rcases i with _ | i
  · cases b <;> simp [shiftIn]
  · have hi' : i < 39 := by omega
    cases b <;> simp [shiftIn, hi'] <;> exact fun _ => hi

/-- The byte register after a bit is the low byte of the frame register after it (41_bit_decoder.md R107). -/
theorem shiftInByte_eq (x : Frame) (b : Bool) :
    shiftInByte (x.setWidth 8) b = (x <<< 1 ||| (BitVec.ofBool b).setWidth 40).setWidth 8 := by
  rw [← shiftIn_eq]
  apply BitVec.eq_of_getLsbD_eq
  intro i hi
  rcases i with _ | i
  · simp [shiftIn, shiftInByte]
  · have h7 : i < 7 := by omega
    have h39 : i < 39 := by omega
    simp [shiftIn, shiftInByte, BitVec.getLsbD_setWidth, h7, h39]
    exact fun _ => hi

theorem shiftInByte_toNat (x : Byte) (b : Bool) : (shiftInByte x b).toNat = (2 * x.toNat + b.toNat) % 256 := by
  have hx := x.isLt
  cases b <;> simp [shiftInByte, BitVec.toNat_concat, BitVec.toNat_setWidth] <;> omega

/-- The byte fields of a frame as numbers (42_frame_checksum.md R115). -/
theorem fields_toNat (x : Frame) :
    (humidityInt x).toNat = x.toNat / 2 ^ 32 % 256 ∧ (humidityFrac x).toNat = x.toNat / 2 ^ 24 % 256 ∧
    (temperatureInt x).toNat = x.toNat / 2 ^ 16 % 256 ∧ (temperatureFrac x).toNat = x.toNat / 2 ^ 8 % 256 ∧
    (checksumByte x).toNat = x.toNat % 256 := by
  simp [humidityInt, humidityFrac, temperatureInt, temperatureFrac, checksumByte, BitVec.extractLsb'_toNat,
    Nat.shiftRight_eq_div_pow]

/-- The weights of 42_frame_checksum.md R116, written out. -/
theorem toByteValue_eq (b : Fin 8 → Bool) :
    toByteValue b = (b 0).toNat * 128 + (b 1).toNat * 64 + (b 2).toNat * 32 + (b 3).toNat * 16 + (b 4).toNat * 8
      + (b 5).toNat * 4 + (b 6).toNat * 2 + (b 7).toNat := by
  have hr : List.finRange 8 = [0, 1, 2, 3, 4, 5, 6, 7] := by decide
  simp [toByteValue, hr]
  omega

end Sys2Proof.Machine
end

