-- ==== Sys2Proof/Laws/PerInstr.lean ====
section
/-! SUPPORT. Statements about every instruction as syntax, one lemma per constructor. -/

/-- What 30_encoding.md R55 to R57 say of an operation as syntax: it has no operand to be ill formed, its code is no
reserved one, and a table word with its code in bits 3..0 decodes to it, the bits above left out or zero. -/
def Sys2Proof.Laws.CodeRoundTrip.Statement (i : Sys2Proof.Instr) : Prop :=
  i.wf = true ∧ (Sys2Proof.encode i).toNat ≤ 8 ∧ Sys2Proof.decode (Sys2Proof.encode i) = .ok i ∧
    Sys2Proof.decodeTableWord 4 (Sys2Proof.encode i).toNat = some i ∧
    Sys2Proof.decodeTableWord 8 (Sys2Proof.encode i).toNat = some i

namespace Sys2Proof.Laws.CodeRoundTrip

theorem idle : Statement .idle := by unfold Statement; decide

theorem startLow : Statement .startLow := by unfold Statement; decide

theorem startHigh : Statement .startHigh := by unfold Statement; decide

theorem hsWaitRel : Statement .hsWaitRel := by unfold Statement; decide

theorem hsWaitAckl : Statement .hsWaitAckl := by unfold Statement; decide

theorem hsWaitAckh : Statement .hsWaitAckh := by unfold Statement; decide

theorem bitGap : Statement .bitGap := by unfold Statement; decide

theorem bitHigh : Statement .bitHigh := by unfold Statement; decide

theorem check : Statement .check := by unfold Statement; decide

end Sys2Proof.Laws.CodeRoundTrip
end

