-- ==== Sys2Proof/Laws/Step.lean ====
section
/-! SUPPORT. What one edge can do, and how runs of edges compose. -/

namespace Sys2Proof.Machine

/-! ### The meanings -/

/-- The assignments an operation makes to the registers, pulses already cleared. -/
def State.operation : Instr → State → State
  | .idle => State.idleOp
  | .startLow => State.startLowOp
  | .startHigh => State.startHighOp
  | .hsWaitRel => State.handshakeWait true .hsWaitAckl
  | .hsWaitAckl => State.handshakeWait false .hsWaitAckh
  | .hsWaitAckh => State.handshakeWait true .bitGap
  | .bitGap => State.bitGapOp
  | .bitHigh => State.bitHighOp
  | .check => State.checkOp

/-- Every operation has a next state, and it is this one. -/
theorem exec_eq (i : Instr) (s : State) : exec i s = .next (s.clearPulses.operation i).nextEdge := by
  cases i <;> rfl

theorem execReserved_eq (s : State) : execReserved s = .next s.clearPulses.reservedOp.nextEdge := rfl

/-- `edgeFrame` is what the clearing of the pulses and the taking of the edge leave together. -/
theorem State.edgeFrame_eq (s : State) : s.edgeFrame = s.clearPulses.nextEdge := rfl

/-! ### One edge -/

/-- The operation a code performs, `RESERVED` included (30_encoding.md R57). -/
def State.operationOf (code : StCode) (s : State) : State :=
  match decode code with
  | .ok i => s.operation i
  | .error _ => s.reservedOp

/-- The next state of an edge with parameters in range. -/
def State.after (s : State) : State :=
  if s.pins.rst then s.resetEdge else (s.clearPulses.operationOf s.st).nextEdge

/-- An edge with parameters in range always has a next state, and it is this one. -/
theorem step_eq {s : State} (h : s.params.ok = true) : step s = .next s.after := by
  simp only [step, h, if_true, State.after, State.operationOf, State.fetchCode]
  split
  · rfl
  · cases decode s.st <;> simp [exec_eq, execReserved_eq]

theorem step_refused {s : State} (h : s.params.ok = false) : step s = .refused .parametersOutOfRange := by
  simp [step, h]

/-- A next state comes from parameters in range and is the one of `State.after`. -/
theorem step_next {s t : State} (h : step s = .next t) : s.params.ok = true ∧ t = s.after := by
  cases hp : s.params.ok
  · rw [step_refused hp] at h; cases h
  · rw [step_eq hp] at h; cases h; exact ⟨rfl, rfl⟩

theorem State.after_reset {s : State} (h : s.pins.rst = true) : s.after = s.resetEdge := by
  simp [State.after, h]

theorem State.after_run {s : State} (h : s.pins.rst = false) :
    s.after = (s.clearPulses.operationOf s.st).nextEdge := by
  simp [State.after, h]

/-! ### The decoder by cases -/

theorem decode_encode (i : Instr) : decode (encode i) = .ok i := by
  cases i <;> rfl

/-- A code is the code of an operation or a reserved one. -/
theorem code_cases (c : StCode) :
    (∃ i, c = encode i) ∨ (9 ≤ c.toNat ∧ decode c = .error (.reservedCode c)) := by
  have h : ∀ c : StCode, (c = 0#4 ∨ c = 1#4 ∨ c = 2#4 ∨ c = 3#4 ∨ c = 4#4 ∨ c = 5#4 ∨ c = 6#4 ∨ c = 7#4 ∨ c = 8#4) ∨
      (9 ≤ c.toNat ∧ decode c = .error (.reservedCode c)) := by decide
  rcases h c with (h | h | h | h | h | h | h | h | h) | h
  exacts [.inl ⟨.idle, h⟩, .inl ⟨.startLow, h⟩, .inl ⟨.startHigh, h⟩, .inl ⟨.hsWaitRel, h⟩, .inl ⟨.hsWaitAckl, h⟩,
    .inl ⟨.hsWaitAckh, h⟩, .inl ⟨.bitGap, h⟩, .inl ⟨.bitHigh, h⟩, .inl ⟨.check, h⟩, .inr h]

@[simp] theorem State.operationOf_encode (i : Instr) (s : State) : s.operationOf (encode i) = s.operation i := by
  simp [State.operationOf, decode_encode]

/-! ### What no operation changes -/

@[simp] theorem State.operation_params (i : Instr) (s : State) : (s.operation i).params = s.params := by
  cases i <;> simp only [State.operation, State.idleOp, State.startLowOp, State.startHighOp, State.handshakeWait,
    State.bitGapOp, State.bitHighOp] <;> (repeat' split) <;> simp

@[simp] theorem State.operation_inputs (i : Instr) (s : State) : (s.operation i).inputs = s.inputs := by
  cases i <;> simp only [State.operation, State.idleOp, State.startLowOp, State.startHighOp, State.handshakeWait,
    State.bitGapOp, State.bitHighOp] <;> (repeat' split) <;> simp

@[simp] theorem State.operation_held (i : Instr) (s : State) : (s.operation i).held = s.held := by
  cases i <;> simp only [State.operation, State.idleOp, State.startLowOp, State.startHighOp, State.handshakeWait,
    State.bitGapOp, State.bitHighOp] <;> (repeat' split) <;> simp

@[simp] theorem State.operation_edge (i : Instr) (s : State) : (s.operation i).edge = s.edge := by
  cases i <;> simp only [State.operation, State.idleOp, State.startLowOp, State.startHighOp, State.handshakeWait,
    State.bitGapOp, State.bitHighOp] <;> (repeat' split) <;> simp

@[simp] theorem State.operationOf_params (c : StCode) (s : State) : (s.operationOf c).params = s.params := by
  unfold State.operationOf; split <;> simp

@[simp] theorem State.operationOf_inputs (c : StCode) (s : State) : (s.operationOf c).inputs = s.inputs := by
  unfold State.operationOf; split <;> simp

@[simp] theorem State.operationOf_held (c : StCode) (s : State) : (s.operationOf c).held = s.held := by
  unfold State.operationOf; split <;> simp

@[simp] theorem State.operationOf_edge (c : StCode) (s : State) : (s.operationOf c).edge = s.edge := by
  unfold State.operationOf; split <;> simp

@[simp] theorem State.after_params (s : State) : s.after.params = s.params := by
  unfold State.after; split <;> simp

@[simp] theorem State.after_inputs (s : State) : s.after.inputs = s.inputs.tail := by
  unfold State.after; split <;> simp

@[simp] theorem State.after_held (s : State) : s.after.held = s.held := by
  unfold State.after; split <;> simp

@[simp] theorem State.after_edge (s : State) : s.after.edge = s.edge + 1 := by
  unfold State.after; split <;> simp

/-! ### What one edge can do, said once -/

/-- THE CASES OF AN EDGE: everything an edge with parameters in range can do to `s`, each case with the condition on the
state and the pins under which it happens and the state it leaves. Invariants and frames are proved by `cases` on this. -/
inductive EdgeCase (s : State) : State → Prop
  | reset (hrst : s.pins.rst = true) : EdgeCase s s.resetEdge
  | idleStay (hrst : s.pins.rst = false) (hst : s.st = 0#4) (hstart : s.pins.start = false) :
      EdgeCase s s.clearPulses.nextEdge
  | idleAccept (hrst : s.pins.rst = false) (hst : s.st = 0#4) (hstart : s.pins.start = true) :
      EdgeCase s s.clearPulses.acceptStart.nextEdge
  | startLowCount (hrst : s.pins.rst = false) (hst : s.st = 1#4) (htmr : s.tmr < s.params.startLowTicks - 1) :
      EdgeCase s s.clearPulses.countPeriod.nextEdge
  | startLowEnd (hrst : s.pins.rst = false) (hst : s.st = 1#4) (htmr : s.params.startLowTicks - 1 ≤ s.tmr) :
      EdgeCase s s.clearPulses.endStartLow.nextEdge
  | startHighCount (hrst : s.pins.rst = false) (hst : s.st = 2#4) (htmr : s.tmr < s.params.startHighTicks - 1) :
      EdgeCase s s.clearPulses.countPeriod.nextEdge
  | startHighEnd (hrst : s.pins.rst = false) (hst : s.st = 2#4) (htmr : s.params.startHighTicks - 1 ≤ s.tmr) :
      EdgeCase s (s.clearPulses.enterWait .hsWaitRel 0).nextEdge
  | waitLeave (ph : HandshakePhase) (next : Instr) (hph : ph ∈ handshakePhases) (hnext : ph.next = encode next)
      (hrst : s.pins.rst = false) (hst : s.st = ph.code) (hline : s.pins.lineIn ≠ ph.level) :
      EdgeCase s (s.clearPulses.enterWait next 1).nextEdge
  | waitAbort (ph : HandshakePhase) (hph : ph ∈ handshakePhases) (hrst : s.pins.rst = false) (hst : s.st = ph.code)
      (hline : s.pins.lineIn = ph.level) (hcap : s.capReached = true) :
      EdgeCase s s.clearPulses.raiseHandshakeTimeout.nextEdge
  | waitCount (ph : HandshakePhase) (hph : ph ∈ handshakePhases) (hrst : s.pins.rst = false) (hst : s.st = ph.code)
      (hline : s.pins.lineIn = ph.level) (hcap : s.capReached = false) :
      EdgeCase s s.clearPulses.countSample.nextEdge
  | gapCount (hrst : s.pins.rst = false) (hst : s.st = 6#4) (hline : s.pins.lineIn = false) :
      EdgeCase s s.clearPulses.countSample.nextEdge
  | gapEnd (hrst : s.pins.rst = false) (hst : s.st = 6#4) (hline : s.pins.lineIn = true) :
      EdgeCase s ((s.clearPulses.enterWait .bitHigh 1).latchGap s.tmr).nextEdge
  | pulseCount (hrst : s.pins.rst = false) (hst : s.st = 7#4) (hline : s.pins.lineIn = true)
      (hiter : s.iter < s.params.bitCeil) : EdgeCase s s.clearPulses.countSample.nextEdge
  | pulseTimeout (hrst : s.pins.rst = false) (hst : s.st = 7#4) (hline : s.pins.lineIn = true)
      (hiter : s.params.bitCeil ≤ s.iter) :
      EdgeCase s ((s.clearPulses.completeBit false true (incT s.params s.tmr)).markBitTimeout.restartCounters 0).nextEdge
  | pulseEnd (hrst : s.pins.rst = false) (hst : s.st = 7#4) (hline : s.pins.lineIn = false) :
      EdgeCase s ((s.clearPulses.completeBit (classify s.params s.tmr) false s.tmr).restartCounters 1).nextEdge
  | verdict (hrst : s.pins.rst = false) (hst : s.st = 8#4) : EdgeCase s s.clearPulses.checkOp.nextEdge
  | reserved (hrst : s.pins.rst = false) (hst : 9 ≤ s.st.toNat) : EdgeCase s s.clearPulses.reservedOp.nextEdge

/-- A handshake wait is one of its three cases. -/
theorem State.edge_of_wait {s : State} {ph : HandshakePhase} {next : Instr} (hph : ph ∈ handshakePhases)
    (hnext : ph.next = encode next) (hr : s.pins.rst = false) (hst : s.st = ph.code) :
    EdgeCase s (s.clearPulses.handshakeWait ph.level next).nextEdge := by
  rcases s.clearPulses.handshakeWait_cases ph.level next with ⟨h, e⟩ | ⟨h, hc, e⟩ | ⟨h, hc, e⟩ <;> rw [e]
  · exact .waitLeave ph next hph hnext hr hst h
  · exact .waitAbort ph hph hr hst h hc
  · exact .waitCount ph hph hr hst h hc

/-- Every edge with parameters in range is one of the cases. -/
theorem State.after_cases (s : State) : EdgeCase s s.after := by
  cases hr : s.pins.rst
  case true => rw [State.after_reset hr]; exact .reset hr
  rw [State.after_run hr]
  rcases code_cases s.st with ⟨i, hi⟩ | ⟨h9, hd⟩
  case inr =>
    have e : s.clearPulses.operationOf s.st = s.clearPulses.reservedOp := by simp [State.operationOf, hd]
    rw [e]; exact .reserved hr h9
  rw [hi, State.operationOf_encode]
  cases i
  case idle =>
    rcases s.clearPulses.idleOp_cases with ⟨h, e⟩ | ⟨h, e⟩ <;> simp only [State.operation, e]
    · exact .idleAccept hr hi h
    · exact .idleStay hr hi h
  case startLow =>
    rcases s.clearPulses.startLowOp_cases with ⟨h, e⟩ | ⟨h, e⟩ <;> simp only [State.operation, e]
    · exact .startLowEnd hr hi h
    · exact .startLowCount hr hi h
  case startHigh =>
    rcases s.clearPulses.startHighOp_cases with ⟨h, e⟩ | ⟨h, e⟩ <;> simp only [State.operation, e]
    · exact .startHighEnd hr hi h
    · exact .startHighCount hr hi h
  case hsWaitRel => exact State.edge_of_wait (ph := ⟨.hsWaitRel, 3#4, true, 4#4⟩) (by decide) rfl hr hi
  case hsWaitAckl => exact State.edge_of_wait (ph := ⟨.hsWaitAckl, 4#4, false, 5#4⟩) (by decide) rfl hr hi
  case hsWaitAckh => exact State.edge_of_wait (ph := ⟨.hsWaitAckh, 5#4, true, 6#4⟩) (by decide) rfl hr hi
  case bitGap =>
    rcases s.clearPulses.bitGapOp_cases with ⟨h, e⟩ | ⟨h, e⟩ <;> simp only [State.operation, e]
    · exact .gapEnd hr hi h
    · exact .gapCount hr hi h
  case bitHigh =>
    rcases s.clearPulses.bitHighOp_cases with ⟨h, hc, e⟩ | ⟨h, hc, e⟩ | ⟨h, e⟩ <;> simp only [State.operation, e]
    · exact .pulseCount hr hi h hc
    · exact .pulseTimeout hr hi h hc
    · exact .pulseEnd hr hi h
  case check => exact .verdict hr hi

/-- A step that answers a next state is one of the cases. -/
theorem edge_of_step {s t : State} (h : step s = .next t) : s.params.ok = true ∧ EdgeCase s t := by
  obtain ⟨hp, rfl⟩ := step_next h
  exact ⟨hp, s.after_cases⟩

/-- The codes of the handshake waits. -/
theorem HandshakePhase.code_cases {ph : HandshakePhase} (h : ph ∈ handshakePhases) :
    (ph.code = 3#4 ∧ ph.level = true ∧ ph.next = 4#4) ∨ (ph.code = 4#4 ∧ ph.level = false ∧ ph.next = 5#4) ∨
    (ph.code = 5#4 ∧ ph.level = true ∧ ph.next = 6#4) := by
  simp only [handshakePhases, List.mem_cons, List.not_mem_nil, or_false] at h
  rcases h with rfl | rfl | rfl <;> simp

/-! ### What an operation reads of the pins -/

/-- An operation reads `start` only in `IDLE` (40_handshake.md R75, R76), `line_in` only in the wait states
(20_memory.md R41) and `diag_en` only in `BIT_HIGH` (41_bit_decoder.md R108), and copies no other part of the queue of
inputs. -/
theorem State.operation_setInputs (i : Instr) (s : State) (ins ins' : List Inputs)
    (hstart : i = .idle → (State.pins { s with inputs := ins }).start = (State.pins { s with inputs := ins' }).start)
    (hline : i = .hsWaitRel ∨ i = .hsWaitAckl ∨ i = .hsWaitAckh ∨ i = .bitGap ∨ i = .bitHigh →
      (State.pins { s with inputs := ins }).lineIn = (State.pins { s with inputs := ins' }).lineIn)
    (hdiag : i = .bitHigh →
      (State.pins { s with inputs := ins }).diagEn = (State.pins { s with inputs := ins' }).diagEn) :
    State.operation i { s with inputs := ins } = { State.operation i { s with inputs := ins' } with inputs := ins } := by
  cases i
  case idle =>
    simp only [State.operation, State.idleOp, hstart rfl]
    by_cases h : (State.pins { s with inputs := ins' }).start = true <;> simp only [h] <;> rfl
  case startLow =>
    by_cases h : s.params.startLowTicks - 1 ≤ s.tmr <;> simp only [State.operation, State.startLowOp, h] <;> rfl
  case startHigh =>
    by_cases h : s.params.startHighTicks - 1 ≤ s.tmr <;> simp only [State.operation, State.startHighOp, h] <;> rfl
  case check => rfl
  case bitGap =>
    simp only [State.operation, State.bitGapOp, State.lineRead, hline (by simp)]
    by_cases h : (State.pins { s with inputs := ins' }).lineIn = true <;> simp only [h] <;> rfl
  case bitHigh =>
    have hd := hdiag rfl
    have hbit : ∀ b t w, State.completeBit b t w { s with inputs := ins }
        = { State.completeBit b t w { s with inputs := ins' } with inputs := ins } := by
      intro b t w
      ext <;> simp [hd]
    simp only [State.operation, State.bitHighOp, State.lineRead, hline (by simp), hbit]
    by_cases hi : s.iter < s.params.bitCeil <;>
      by_cases h : (State.pins { s with inputs := ins' }).lineIn = true <;> simp only [hi, h] <;> rfl
  all_goals
    have hc : State.capReached { s with inputs := ins } = State.capReached { s with inputs := ins' } := rfl
    simp only [State.operation, State.handshakeWait, State.lineRead, hline (by simp), hc]
    rcases Bool.eq_false_or_eq_true (State.pins { s with inputs := ins' }).lineIn with h | h <;>
      by_cases hr : State.capReached { s with inputs := ins' } = true <;> simp only [h, hr] <;> rfl

/-- Two next pin levels that agree where the coming edge looks lead to the same state: `rst` always, `start` in `IDLE`,
`line_in` in the wait states, `diag_en` in `BIT_HIGH`. -/
theorem State.after_changePins (s : State) {x y : Inputs} (rest : List Inputs) (hr : x.rst = y.rst)
    (hstart : s.st = 0#4 → x.start = y.start)
    (hline : 3 ≤ s.st.toNat → s.st.toNat ≤ 7 → x.lineIn = y.lineIn)
    (hdiag : s.st = 7#4 → x.diagEn = y.diagEn) :
    State.after { s with inputs := x :: rest } = State.after { s with inputs := y :: rest } := by
  cases hb : y.rst
  · rw [State.after_run (s := { s with inputs := x :: rest }) (hr.trans hb),
      State.after_run (s := { s with inputs := y :: rest }) hb]
    rcases code_cases s.st with ⟨i, hi⟩ | ⟨-, hd⟩
    · have key := State.operation_setInputs i s.clearPulses (x :: rest) (y :: rest)
        (by rintro rfl; exact hstart hi)
        (by rintro (rfl | rfl | rfl | rfl | rfl) <;> exact hline (by rw [hi]; decide) (by rw [hi]; decide))
        (by rintro rfl; exact hdiag hi)
      have e : ∀ z : List Inputs, State.operationOf s.st (State.clearPulses { s with inputs := z })
          = State.operation i { s.clearPulses with inputs := z } := fun z => by
        exact (congrArg (fun c => State.operationOf c _) hi).trans (State.operationOf_encode i _)
      rw [e, e, key]; ext <;> simp
    · simp only [State.operationOf, hd]; rfl
  · rw [State.after_reset (s := { s with inputs := x :: rest }) (hr.trans hb),
      State.after_reset (s := { s with inputs := y :: rest }) hb]; rfl
/-! ### A completed bit -/

/-- The two ways a bit is completed, as the statements write them (`State.afterBit`). -/
theorem State.completeBit_eq_afterBit (b : Bool) (w n : Nat) (s : State) :
    (State.restartCounters n (s.clearPulses.completeBit b false w)).nextEdge = s.afterBit b false w n ∧
    (State.restartCounters n (s.clearPulses.completeBit b true w).markBitTimeout).nextEdge = s.afterBit b true w n := by
  have hlast : (bitIndex s.bitcnt = 7#3) = (s.bitcnt.toNat % 8 = 7) := by
    rw [← bitIndex_toNat, ← BitVec.toNat_inj]; rfl
  have hcnt : s.bitcnt + 1#6 = BitVec.ofNat 6 (s.bitcnt.toNat + 1) := by
    apply BitVec.eq_of_toNat_eq; simp
  have hidx : byteIndex s.bitcnt = BitVec.ofNat 3 (s.bitcnt.toNat / 8) := by
    have := s.bitcnt.isLt
    apply BitVec.eq_of_toNat_eq; rw [byteIndex_toNat]; simp; omega
  constructor <;> ext <;> simp only [State.nextEdge_st, State.afterBit] <;>
    simp [hlast, shiftIn_eq, shiftInByte_eq, hcnt, hidx, State.edgeFrame] <;> split <;> simp_all

/-! ### Runs -/

@[simp] theorem runEdges_zero (s : State) : runEdges 0 s = .next s := rfl

theorem runEdges_succ {s : State} (h : s.params.ok = true) (k : Nat) :
    runEdges (k + 1) s = runEdges k s.after := by
  simp only [runEdges, step_eq h]

theorem runEdges_succ_refused {s : State} (h : s.params.ok = false) (k : Nat) :
    runEdges (k + 1) s = .refused .parametersOutOfRange := by
  simp only [runEdges, step_refused h]

/-- `runEdges` is the run of the host's interface. -/
theorem runEdges_eq_core_run (k : Nat) (s : State) : runEdges k s = Host.Core.run Sys2Proof.core k s := by
  induction k generalizing s with
  | zero => rfl
  | succ k ih =>
    cases hp : s.params.ok
    · rw [runEdges_succ_refused hp]
      simp only [Host.Core.run, show Sys2Proof.core.step s = .refused .parametersOutOfRange from step_refused hp]
      rfl
    · rw [runEdges_succ hp, ih]
      simp only [Host.Core.run, show Sys2Proof.core.step s = .next s.after from step_eq hp]
      rfl

/-- Runs compose. -/
theorem runEdges_add {s t : State} {k : Nat} (h : runEdges k s = .next t) (m : Nat) :
    runEdges (k + m) s = runEdges m t := by
  induction k generalizing s with
  | zero => cases h; simp
  | succ k ih =>
    rw [Nat.add_right_comm]
    cases hp : s.params.ok
    · rw [runEdges_succ_refused hp] at h; cases h
    · rw [runEdges_succ hp] at h ⊢
      exact ih h

/-- A run with parameters in range never stops. -/
theorem runEdges_total {s : State} (h : s.params.ok = true) (k : Nat) :
    ∃ t, runEdges k s = .next t ∧ t.params = s.params := by
  induction k generalizing s with
  | zero => exact ⟨s, rfl, rfl⟩
  | succ k ih =>
    obtain ⟨t, ht, hp⟩ := ih (s := s.after) (by simpa using h)
    exact ⟨t, by rw [runEdges_succ h, ht], by simpa using hp⟩

/-- AN INDUCTION OVER RUNS: what every edge keeps, every run keeps. -/
theorem runEdges_keeps {P : State → Prop} (hk : ∀ s, P s → s.params.ok = true → P s.after) {s t : State} {k : Nat}
    (hs : P s) (h : runEdges k s = .next t) : P t := by
  induction k generalizing s with
  | zero => cases h; exact hs
  | succ k ih =>
    cases hp : s.params.ok
    · rw [runEdges_succ_refused hp] at h; cases h
    · rw [runEdges_succ hp] at h
      exact ih (hk s hs hp) h

end Sys2Proof.Machine
end

