-- ==== Sys2Proof/Tests/Slice0.lean ====
section
/-! SUPPORT. The model's own tests: the code map written out bit by bit, the ill-formed parameter sets, single edges with
the results that spec/95_test_vectors.md derives, and a witness for the hypotheses of every statement. -/

namespace Sys2Proof.Tests

open Sys2Proof Sys2Proof.Machine

/-! ### Small states -/

/-- The parameters of 95_test_vectors.md P8. -/
def small : Params :=
  { Params.hardware with startLowTicks := 3, startHighTicks := 2, thresholdTicks := 3, bitCeil := 5 }

/-- The parameters of 95_test_vectors.md P4b. -/
def capped : Params := { Params.hardware with hsWaitCap := some 4000 }

/-- Parameters for the shortest witnesses. -/
def tiny : Params :=
  { Params.hardware with startLowTicks := 1, startHighTicks := 1, thresholdTicks := 2, bitCeil := 3, hsWaitCap := some 2 }

def low : Inputs := { rst := false, start := false, lineIn := false, diagEn := true }
def high : Inputs := { rst := false, start := false, lineIn := true, diagEn := true }
def request : Inputs := { rst := false, start := true, lineIn := true, diagEn := true }
def resetPin : Inputs := { rst := true, start := true, lineIn := true, diagEn := true }

/-- The reset state with another code in `st`, parameters `p` and coming inputs `xs`. -/
def at_ (code : StCode) (p : Params) (xs : List Inputs) : State :=
  { State.reset with st := code, params := p, inputs := xs }

/-- The next state of a step, or the reset state where there is none. -/
def stepped (s : State) : State :=
  match step s with
  | .next t => t
  | _ => State.reset

/-- The next state of an operation, or the reset state where there is none. -/
def performed (i : Instr) (s : State) : State :=
  match exec i s with
  | .next t => t
  | _ => State.reset

/-- `s` with both counters at `n`. -/
def counted (n : Nat) (s : State) : State := { s with tmr := n, iter := n }

/-! ### Decoding: every code written out from 30_encoding.md R56, R57 -/

theorem test_decode_idle : decode 0b0000#4 = .ok .idle := by decide
theorem test_decode_startLow : decode 0b0001#4 = .ok .startLow := by decide
theorem test_decode_startHigh : decode 0b0010#4 = .ok .startHigh := by decide
theorem test_decode_hsWaitRel : decode 0b0011#4 = .ok .hsWaitRel := by decide
theorem test_decode_hsWaitAckl : decode 0b0100#4 = .ok .hsWaitAckl := by decide
theorem test_decode_hsWaitAckh : decode 0b0101#4 = .ok .hsWaitAckh := by decide
theorem test_decode_bitGap : decode 0b0110#4 = .ok .bitGap := by decide
theorem test_decode_bitHigh : decode 0b0111#4 = .ok .bitHigh := by decide
theorem test_decode_check : decode 0b1000#4 = .ok .check := by decide
theorem test_decode_reserved :
    decode 0b1001#4 = .error (.reservedCode 9#4) ∧ decode 0b1111#4 = .error (.reservedCode 15#4) := by decide
theorem test_decode_table_word : decodeTableWord 8 0x07 = some .bitHigh ∧ decodeTableWord 8 0x09 = none := by decide

/-! ### Well-formedness: one ill-formed set for each check (00_scope.md R10, R11) -/

theorem test_hardware_ok : Params.hardware.ok = true := by decide
theorem test_startLow_refused : Params.startLowFits { small with startLowTicks := 0 } = false ∧
    Params.ok { small with startLowTicks := 2 ^ 20 } = false := by decide
theorem test_startHigh_refused : Params.startHighFits { small with startHighTicks := 0 } = false ∧
    Params.ok { small with startHighTicks := 2 ^ 20 } = false := by decide
theorem test_threshold_refused : Params.thresholdFits { small with thresholdTicks := 6 } = false ∧
    Params.ok { small with thresholdTicks := 0 } = false := by decide
theorem test_ceil_refused : Params.ceilFits { small with bitCeil := 2 ^ 16 } = false ∧
    Params.ok { small with tmrW := 2 } = false := by decide
theorem test_cap_refused : Params.capFits { small with hsWaitCap := some 0 } = false ∧
    Params.ok { small with hsWaitCap := some 65536 } = false := by decide
theorem test_token_refused : Token.wf (.high 0) = false ∧ Token.wf (.low 0) = false ∧ Token.wf (.low 1) = true := by decide
theorem test_document_conditions :
    Params.hardware.startPulseLongEnough = true ∧ Params.hardware.classifiesDocument = true ∧
    Params.startPulseLongEnough { Params.hardware with startLowTicks := 71999 } = false ∧
    Params.classifiesDocument { Params.hardware with ticksPerUs := 10 } = false := by decide

/-! ### Single edges -/

/-- 95_test_vectors.md V1, first row. -/
theorem test_idle_without_request :
    (stepped (at_ 0#4 small [low])).st = 0#4 ∧ (stepped (at_ 0#4 small [low])).lineOut = true := by decide

/-- V1, fourth row: the result of P1 is cleared. -/
theorem test_idle_accepts :
    let t := stepped { at_ 0#4 small [request] with
      valid := true, sr := 0x3C00170053#40, bitcnt := 40#6, gapLat := 200, diagByte := 0x53#8 }
    t.st = 1#4 ∧ t.valid = false ∧ t.sr = 0#40 ∧ t.bitcnt = 0#6 ∧ t.gapLat = 0 ∧ t.diagByte = 0x53#8 := by decide

/-- P8, edges 2 and 3. -/
theorem test_startLow :
    (stepped { at_ 1#4 small [low] with tmr := 1 }).tmr = 2 ∧ (stepped { at_ 1#4 small [low] with tmr := 1 }).iter = 0 ∧
    (stepped { at_ 1#4 small [low] with tmr := 2 }).st = 2#4 ∧ (stepped { at_ 1#4 small [low] with tmr := 2 }).tmr = 0 := by
  decide

/-- P8, edges 4 and 5. -/
theorem test_startHigh :
    (stepped (at_ 2#4 small [low])).st = 2#4 ∧ (stepped (at_ 2#4 small [low])).tmr = 1 ∧
    (stepped { at_ 2#4 small [low] with tmr := 1 }).st = 3#4 ∧ (stepped { at_ 2#4 small [low] with tmr := 1 }).lineOe = false := by
  decide

/-- P8, edges 7 and 8. -/
theorem test_hsWaitRel :
    (stepped (counted 1 (at_ 3#4 small [high]))).iter = 2 ∧ (stepped (counted 2 (at_ 3#4 small [low]))).st = 4#4 ∧
    (stepped (counted 2 (at_ 3#4 small [low]))).tmr = 1 := by decide

/-- V2, rows "run of exactly C" and "no sensor, capped": the sample that makes 4000 is counted, the next one aborts. -/
theorem test_hsWaitRel_cap :
    (stepped (counted 3999 (at_ 3#4 capped [high]))).iter = 4000 ∧
    (stepped (counted 4000 (at_ 3#4 capped [high]))).err = 1#2 ∧
    (stepped (counted 4000 (at_ 3#4 capped [high]))).done = true ∧
    (stepped (counted 4000 (at_ 3#4 capped [high]))).tmr = 4000 ∧ (stepped (counted 4000 (at_ 3#4 capped [high]))).st = 0#4 := by
  decide

/-- P8, edges 9 and 10. -/
theorem test_hsWaitAckl :
    (stepped (counted 1 (at_ 4#4 small [low]))).tmr = 2 ∧ (stepped (counted 2 (at_ 4#4 small [high]))).st = 5#4 := by decide

/-- V2, row "stuck low". -/
theorem test_hsWaitAckl_cap : (stepped (counted 4000 (at_ 4#4 capped [low]))).err = 1#2 := by decide

/-- P8, edges 11 and 12. -/
theorem test_hsWaitAckh :
    (stepped (counted 1 (at_ 5#4 small [high]))).iter = 2 ∧ (stepped (counted 2 (at_ 5#4 small [low]))).st = 6#4 := by decide

/-- P8, edges 13 and 14. -/
theorem test_bitGap :
    (stepped (counted 1 (at_ 6#4 small [low]))).tmr = 2 ∧ (stepped (counted 2 (at_ 6#4 small [high]))).st = 7#4 ∧
    (stepped (counted 2 (at_ 6#4 small [high]))).gapLat = 2 ∧ (stepped (counted 2 (at_ 6#4 small [high]))).tmr = 1 := by decide

/-- V2, row "run of exactly C": a cap does not count in `BIT_GAP`. -/
theorem test_bitGap_has_no_cap : (stepped (counted 4000 (at_ 6#4 capped [low]))).st = 6#4 := by decide

/-- V3, rows 279, 280 and 1000: the record of the bit. -/
theorem test_bitHigh_classifies :
    let ended := fun n => stepped { counted n (at_ 7#4 Params.hardware [low]) with gapLat := 200 }
    (ended 279).diagBit = false ∧ (ended 280).diagBit = true ∧ (ended 1000).diagBit = true ∧
    (ended 1000).toSeen = false ∧ (ended 280).diagWidth = 280 ∧ (ended 280).diagGap = 200 ∧
    (ended 280).diagBitStb = true ∧ (ended 280).sr = 1#40 ∧ (ended 280).tmr = 1 := by decide

/-- V3, row 1001: the timeout. -/
theorem test_bitHigh_times_out :
    let t := stepped { counted 1000 (at_ 7#4 Params.hardware [high]) with gapLat := 200, sr := 0b0110#40, bitcnt := 7#6 }
    t.diagWidth = 1001 ∧ t.diagBit = false ∧ t.diagBitTo = true ∧ t.toSeen = true ∧ t.st = 6#4 ∧ t.tmr = 0 ∧
    t.sr = 0b01100#40 ∧ t.bitcnt = 8#6 ∧ t.diagByteStb = true ∧ t.diagByte = 0b01100#8 ∧ t.diagByteIdx = 0#3 := by decide

/-- P1, edge 87066: the fortieth bit, with the last byte record of V6. -/
theorem test_bitHigh_last_bit :
    let t := stepped { counted 280 (at_ 7#4 Params.hardware [low]) with sr := 0x1E000B8029#40, bitcnt := 39#6 }
    t.st = 8#4 ∧ t.sr = 0x3C00170053#40 ∧ t.bitcnt = 40#6 ∧ t.diagByte = 0x53#8 ∧ t.diagByteIdx = 4#3 := by decide

/-- P1, edge 87067, with V7's value of the converter, and P2. -/
theorem test_check :
    let t := stepped { at_ 8#4 Params.hardware [low] with sr := 0x3C00170053#40, bitcnt := 40#6 }
    t.valid = true ∧ t.done = true ∧ t.err = 0#2 ∧ t.humInt = 60#8 ∧ t.tempX10 = 230#12 ∧ t.humX10 = 600#12 ∧
    (stepped { at_ 8#4 Params.hardware [low] with sr := 0x3C00170000#40, bitcnt := 40#6 }).err = 3#2 := by decide

/-- P5 (the two comparisons) and P7 (a timeout is reported before a mismatch). -/
theorem test_check_settings :
    (stepped { at_ 8#4 Params.hardware [low] with sr := 0xF000320022#40 }).valid = true ∧
    (stepped { at_ 8#4 { Params.hardware with csumWide := true } [low] with sr := 0xF000320022#40 }).err = 3#2 ∧
    (stepped { at_ 8#4 Params.hardware [low] with sr := 0x3C000B8029#40, toSeen := true }).err = 2#2 := by decide

/-- V10, last row. -/
theorem test_reserved :
    (stepped { at_ 9#4 small [low] with tmr := 7 }) = { at_ 0#4 small [] with tmr := 7, edge := 1 } ∧
    (stepped (at_ 15#4 small [low])).done = false ∧ (at_ 12#4 small []).busy = true ∧ (at_ 12#4 small []).lineOe = false := by
  decide

/-- V8, first row: `rst` and `start` together. -/
theorem test_reset_edge :
    stepped { counted 99 (at_ 7#4 small [resetPin]) with sr := 0x3C001#40, bitcnt := 20#6 } =
      { State.reset with params := small, edge := 1 } := by decide

/-- A table word placed for the fetch runs as the first operation after reset (30_encoding.md R55, R56). -/
theorem test_withFetchWord :
    step (State.reset.withFetchWord 8 1) = exec .startLow (State.reset.withFetchWord 8 1) ∧
    (stepped (State.reset.withFetchWord 8 1)).tmr = 1 := ⟨rfl, by decide⟩

/-- V10: the line outputs by code. -/
theorem test_line_drive :
    lineDrive 1#4 = .driveLow ∧ lineDrive 2#4 = .driveHigh ∧ lineDrive 0#4 = .released ∧ lineDrive 15#4 = .released := by
  decide

/-- V6: `toByteValue` of the bits in order of arrival. -/
theorem test_toByteValue :
    toByteValue (fun i => [false, true, false, true, false, false, true, true][i]) = 83 ∧
    arrivalBits 0x53#8 = [false, true, false, true, false, false, true, true] := by decide

/-- V7. -/
theorem test_converter : tenths 23#8 5#8 = 235#12 ∧ tenths 23#8 15#8 = 245#12 ∧ tenths 255#8 255#8 = 2805#12 := by decide

/-- E7. -/
theorem test_reading : toReading 23#8 5#8 = 47 / 2 := by
  rw [toReading, show (23#8 : Byte).toNat = 23 from rfl, show (5#8 : Byte).toNat = 5 from rfl]; norm_num

/-- 30_encoding.md R71: the first pairs of a frame, and the forty pairs of one. -/
theorem test_frameWave :
    (frameWaveDefault [0x3C#8]).take 6 = [.low 200, .high 108, .low 200, .high 108, .low 200, .high 280] ∧
    (frameWaveDefault [0x3C#8, 0#8, 0x17#8, 0#8, 0x53#8]).length = 80 := by decide

/-- 30_encoding.md R70: `L1 H*` has its level for ever, `H2` has ended after two samples. -/
theorem test_waveform_sample :
    Waveform.sample ⟨[.low 1], some .highForever⟩ 0 = some false ∧
    Waveform.sample ⟨[.low 1], some .highForever⟩ 72002 = some true ∧
    Waveform.sample ⟨[], some .lowForever⟩ 0 = some false ∧ Waveform.sample ⟨[.high 2], none⟩ 2 = none := by decide

/-- 30_encoding.md R70: the edge after the tokens of `H1 L*` reads the held level, and keeps it for the next one. -/
theorem test_held_level :
    let t := stepped (stepped (Waveform.placeAfter ⟨[.high 1], some .lowForever⟩ [] true (at_ 3#4 small [])))
    t.st = 4#4 ∧ t.pins = low := by decide

/-- 30_encoding.md R68: a cycle is the handshake, five bytes and the check. -/
theorem test_readCycle_expansion :
    Contract.readCycle.expansion = [.idle] ++ Contract.performHandshake.expansion
      ++ (List.replicate 5 Contract.readByte.expansion).flatten ++ Contract.isValid.expansion := by decide

/-! ### Witnesses: the hypotheses of each statement, met together

A witness of `step s = .next t` is stated with `t` written as `stepped s`. -/

/-- The coming inputs take no part in the invariant. -/
theorem inv_setInputs {s : State} (xs : List Inputs) (h : s.Inv) : { s with inputs := xs }.Inv := by
  cases h; constructor <;> assumption

/-- Neither do the held levels. -/
theorem inv_setHeld {s : State} (x : Option Inputs) (h : s.Inv) : { s with held := x }.Inv := by
  cases h; constructor <;> assumption

theorem inv_reset : State.reset.Inv := by
  constructor <;> first | decide | exact fun h => absurd h (by decide)

/-- In `BIT_GAP` after the handshake. -/
theorem inv_gap : (counted 1 (at_ 6#4 tiny [])).Inv := by
  constructor <;> first | decide | exact fun h => absurd h (by decide)

/-- In `BIT_GAP` with one bit missing. -/
theorem inv_last_gap : State.Inv { counted 1 (at_ 6#4 tiny []) with sr := 5#40, bitcnt := 39#6 } := by
  constructor <;> first | decide | exact fun h => absurd h (by decide)

/-- In `BIT_HIGH` with a pulse begun. -/
theorem inv_pulse : (counted 1 (at_ 7#4 tiny [])).Inv := by
  constructor <;> first | decide | exact fun h => absurd h (by decide)

/-- In each handshake wait without a cap. -/
theorem inv_wait : ∀ ph ∈ handshakePhases, (at_ ph.code small []).Inv := by
  intro ph h
  rcases HandshakePhase.code_cases h with ⟨h, -⟩ | ⟨h, -⟩ | ⟨h, -⟩ <;> rw [h] <;>
  constructor <;> first | decide | exact fun h => absurd h (by decide)

/-- In each handshake wait with the cap 2. -/
theorem inv_capped_wait : ∀ ph ∈ handshakePhases, (counted 1 (at_ ph.code tiny [])).Inv := by
  intro ph h
  rcases HandshakePhase.code_cases h with ⟨h, -⟩ | ⟨h, -⟩ | ⟨h, -⟩ <;> rw [h] <;>
  constructor <;> first | decide | exact fun h => absurd h (by decide)

/-- In `IDLE` with a valid result. -/
theorem inv_result :
    State.Inv { at_ 0#4 small [] with valid := true, sr := 0x3C00170053#40, bitcnt := 40#6 } := by
  constructor <;> first | decide | exact fun h => absurd h (by decide)

/-- In `CHECK` with a whole frame that passes. -/
theorem inv_check : State.Inv { at_ 8#4 small [] with sr := 0x3C00170053#40, bitcnt := 40#6 } := by
  constructor <;> first | decide | exact fun h => absurd h (by decide)

/-- A step of a state with parameters in range is to its `stepped`. -/
theorem step_stepped {s : State} (h : s.params.ok = true) : step s = .next (stepped s) := by
  rw [stepped, step_eq h]

/-- The first and the last reserved code. -/
theorem witness_DecodeAndEncodeAgree : 9 ≤ (9#4).toNat ∧ 9 ≤ (15#4).toNat := by decide

theorem witness_ResetEdgeClearsEveryRegister :
    (at_ 7#4 small [resetPin]).params.ok = true ∧ (at_ 7#4 small [resetPin]).pins.rst = true := by decide

theorem witness_OutputsAfterReset :
    (at_ 1#4 small [resetPin]).params.ok = true ∧ (at_ 1#4 small [resetPin]).pins.rst = true := by decide

/-- Both clauses: a second edge without and with a request. -/
theorem witness_ResetBeatsStart :
    (at_ 7#4 small [resetPin, low]).params.ok = true ∧ (at_ 7#4 small [resetPin, low]).inputs = resetPin :: low :: [] ∧
    resetPin.rst = true ∧ low.rst = false ∧ low.start = false ∧
    (at_ 7#4 small [resetPin, request]).inputs = resetPin :: request :: [] ∧ request.rst = false ∧
    request.start = true := by decide

theorem witness_StepPerformsTheSelectedOperation :
    small.ok = true ∧ ∀ i ∈ Contract.readCycle.expansion,
      (at_ (encode i) small [low]).pins.rst = false ∧ decode (at_ (encode i) small [low]).st = .ok i := by decide

/-- The first and the last reserved code. -/
theorem witness_ReservedCodeReturnsToIdle :
    (at_ 9#4 small [low]).params.ok = true ∧ (at_ 9#4 small [low]).pins.rst = false ∧
    9 ≤ (at_ 9#4 small [low]).st.toNat ∧ (at_ 15#4 small [high]).pins.rst = false ∧
    9 ≤ (at_ 15#4 small [high]).st.toNat := by decide

/-- Both sides of the equivalence occur: the set of `test_cap_refused`, and the hardware's. -/
theorem witness_ParametersOutOfRangeAreRefused :
    (at_ 0#4 { small with hsWaitCap := some 0 } [low]).params.ok = false ∧ (at_ 0#4 small [low]).params.ok = true := by
  decide

theorem witness_EveryEdgeHasANextState : State.reset.params.ok = true := by decide

theorem witness_IdleWithoutStartKeepsEverything : (at_ 0#4 small [low]).pins.start = false := by decide

theorem witness_IdleAcceptsStart : (at_ 0#4 small [request]).pins.start = true ∧ Instr.check ≠ Instr.idle := by decide

/-- The three clauses, the first two where they meet. -/
theorem witness_StartLowDrivesLowForItsTicks :
    small.startLowTicks - 1 ≤ { at_ 1#4 small [low] with tmr := 2 }.tmr ∧
    { at_ 1#4 small [low] with tmr := 1 }.tmr < small.startLowTicks - 1 ∧
    (at_ 1#4 small [low, low, high]).params.ok = true ∧ (at_ 1#4 small [low, low, high]).st = 1#4 ∧
    (at_ 1#4 small [low, low, high]).tmr = 0 ∧ [low, low, high].length = small.startLowTicks ∧
    (∀ x ∈ [low, low, high], x.rst = false) ∧ (at_ 1#4 small [low, low, high]).inputs = [low, low, high] ++ [] := by
  decide

theorem witness_StartHighDrivesHighForItsTicks :
    small.startHighTicks - 1 ≤ { at_ 2#4 small [low] with tmr := 1 }.tmr ∧
    (at_ 2#4 small [low]).tmr < small.startHighTicks - 1 ∧ (at_ 2#4 small [low, high]).params.ok = true ∧
    (at_ 2#4 small [low, high]).st = 2#4 ∧ (at_ 2#4 small [low, high]).tmr = 0 ∧
    [low, high].length = small.startHighTicks ∧ (∀ x ∈ [low, high], x.rst = false) ∧
    (at_ 2#4 small [low, high]).inputs = [low, high] ++ [] := by decide

/-- The input at the waiting level, and the one that ends the wait. -/
def atLevel (level : Bool) : Inputs := { low with lineIn := level }

/-- The three clauses at each wait: a level change, the cap 4000 just reached, and one sample before it. -/
theorem witness_HandshakeWaitTakesOneEdge : ∀ ph ∈ handshakePhases,
    (at_ ph.code capped [atLevel !ph.level]).pins.lineIn ≠ ph.level ∧
    (counted 4000 (at_ ph.code capped [atLevel ph.level])).pins.lineIn = ph.level ∧
    capped.hsWaitCap = some 4000 ∧ 4000 ≤ (counted 4000 (at_ ph.code capped [atLevel ph.level])).iter ∧
    (counted 3999 (at_ ph.code capped [atLevel ph.level])).pins.lineIn = ph.level ∧
    (counted 3999 (at_ ph.code capped [atLevel ph.level])).iter < 4000 := by decide

theorem witness_HandshakeHangsWithoutCap : ∀ ph ∈ handshakePhases,
    (at_ ph.code small [atLevel ph.level, atLevel ph.level, resetPin]).Inv ∧ small.hsWaitCap = none ∧
    noReset [atLevel ph.level, atLevel ph.level] ∧ (∀ x ∈ [atLevel ph.level, atLevel ph.level], x.lineIn = ph.level) ∧
    (at_ ph.code small [atLevel ph.level, atLevel ph.level, resetPin]).inputs =
      [atLevel ph.level, atLevel ph.level] ++ [resetPin] :=
  fun ph h => ⟨inv_setInputs _ (inv_wait ph h), rfl, by simp [noReset, atLevel, low], by simp [atLevel], rfl⟩

/-- First clause: one sample counted, one more at the cap 2, then the sample that aborts. Second clause: that sample's
edge. -/
theorem witness_HandshakeAbortsAtTheCap :
    (∀ ph ∈ handshakePhases,
      { counted 1 (at_ ph.code tiny []) with inputs := [atLevel ph.level] ++ atLevel ph.level :: [] }.Inv ∧
      tiny.hsWaitCap = some 2 ∧ noReset ([atLevel ph.level] ++ [atLevel ph.level]) ∧
      (∀ y ∈ [atLevel ph.level] ++ [atLevel ph.level], y.lineIn = ph.level) ∧
      (counted 1 (at_ ph.code tiny [])).iter + [atLevel ph.level].length = 2) ∧
    ((at_ 3#4 tiny [high]).err ≠ 1#2 ∧ (stepped (counted 2 (at_ 3#4 tiny [high]))).err = 1#2 ∧
      step (counted 2 (at_ 3#4 tiny [high])) = .next (stepped (counted 2 (at_ 3#4 tiny [high])))) :=
  ⟨fun ph h => ⟨inv_setInputs _ (inv_capped_wait ph h), rfl, by simp [noReset, atLevel, low], by simp [atLevel], rfl⟩,
    by decide, by decide, step_stepped (by decide)⟩

theorem witness_BitGapCountsLowAndLeavesOnHigh :
    (at_ 6#4 small [low]).pins.lineIn = false ∧ (at_ 6#4 small [high]).pins.lineIn = true := by decide

theorem witness_BitGapHangsOnALowLine :
    { counted 1 (at_ 6#4 tiny []) with inputs := [low, low] ++ [resetPin] }.Inv ∧ noReset [low, low] ∧
    ∀ x ∈ [low, low], x.lineIn = false :=
  ⟨inv_setInputs _ inv_gap, by simp [noReset, low], by simp [low]⟩

/-- The last count below the ceiling, and a count in a visit the invariant describes. -/
theorem witness_BitHighCountsBelowTheCeiling :
    (counted 4 (at_ 7#4 small [high])).pins.lineIn = true ∧
    (counted 4 (at_ 7#4 small [high])).iter < (counted 4 (at_ 7#4 small [high])).params.bitCeil ∧
    State.Inv { counted 1 (at_ 7#4 tiny []) with inputs := [high] } ∧ high.lineIn = true ∧ 1 < tiny.bitCeil :=
  ⟨by decide, by decide, inv_setInputs _ inv_pulse, rfl, by decide⟩

/-- A low sample at the ceiling. -/
theorem witness_BitHighClassifiesAtTheFallingEdge : (counted 5 (at_ 7#4 small [low])).pins.lineIn = false := by decide

theorem witness_BitHighTimesOutAtTheCeiling :
    (counted 5 (at_ 7#4 small [high])).pins.lineIn = true ∧
    (counted 5 (at_ 7#4 small [high])).params.bitCeil ≤ (counted 5 (at_ 7#4 small [high])).iter := by decide

/-- The three clauses: a frame that passes, one that fails, and a timeout. -/
theorem witness_CheckGivesTheVerdict :
    checksumOk Params.hardware 0x3C00170053#40 = true ∧ checksumOk Params.hardware 0x3C00170000#40 = false ∧
    (at_ 8#4 small []).toSeen = false ∧ { at_ 8#4 small [] with toSeen := true }.toSeen = true := by decide

theorem witness_ClassifyIncludesTheThreshold : Params.hardware.thresholdTicks = 280 := by decide

/-- The settings, and sums on both sides of 256. -/
theorem witness_ChecksumComparesModulo256 :
    Params.hardware.csumWide = false ∧ Params.csumWide { Params.hardware with csumWide := true } = true ∧
    256 ≤ byteSum 0xF000320022#40 ∧ byteSum 0x3C00170053#40 < 256 := by decide

/-- The first and the last bit of a frame that passes; two frames with the same difference. -/
theorem witness_SingleBitChangeIsCaught :
    0 < 40 ∧ 39 < 40 ∧ checksumOk Params.hardware 0x3C00170053#40 = true ∧ Params.hardware.csumWide = false ∧
    (byteSum 0x3C00170053#40 + (256 - (checksumByte 0x3C00170053#40).toNat)) % 256 =
      (byteSum 0x3D00160053#40 + (256 - (checksumByte 0x3D00160053#40).toNat)) % 256 := by decide

/-- The ends of the range of the wait states. -/
theorem witness_LineDriverFollowsTheState :
    3 ≤ (at_ 3#4 small []).st.toNat ∧ (at_ 3#4 small []).st.toNat ≤ 7 ∧ 3 ≤ (at_ 7#4 small []).st.toNat ∧
    (at_ 7#4 small []).st.toNat ≤ 7 := by decide

theorem witness_DataOutputsAreGatedByValid :
    { at_ 0#4 small [] with valid := true }.valid = true ∧ State.reset.valid = false ∧
    (counted 1 (at_ 7#4 tiny [])).Inv ∧ (counted 1 (at_ 7#4 tiny [])).busy = true :=
  ⟨by decide, by decide, inv_pulse, by decide⟩

theorem witness_ConverterOutputsAreExactTenths : State.reset.valid = false := by decide

theorem witness_InvariantHoldsAtReset : tiny.ok = true := by decide

theorem witness_StepKeepsTheInvariant :
    State.Inv { counted 1 (at_ 7#4 tiny []) with inputs := [low] } ∧
    step { counted 1 (at_ 7#4 tiny []) with inputs := [low] } =
      .next (stepped { counted 1 (at_ 7#4 tiny []) with inputs := [low] }) :=
  ⟨inv_setInputs _ inv_pulse, step_stepped (by decide)⟩

theorem witness_RunsNeverStopAndKeepTheInvariant : State.reset.Inv := inv_reset

/-- Every kind of edge the clauses of these whole-machine statements speak of has a state that takes it. -/
theorem witness_SequencerMovesOnlyAsSpecified : ∀ code ∈ [0#4, 1#4, 2#4, 3#4, 4#4, 5#4, 6#4, 7#4, 8#4, 9#4, 15#4],
    (at_ code small [low]).pins.rst = false ∧
    step (at_ code small [low]) = .next (stepped (at_ code small [low])) :=
  fun _ _ => ⟨rfl, step_stepped (s := at_ _ small [low]) (show small.ok = true by decide)⟩

theorem witness_PulsesLastOnePeriod :
    (at_ 8#4 small [low, high]).pins.rst = false ∧
    step (at_ 8#4 small [low, high]) = .next (stepped (at_ 8#4 small [low, high])) ∧
    (stepped (at_ 8#4 small [low, high])).done = true ∧ (stepped (at_ 8#4 small [low, high])).pins.rst = false :=
  ⟨rfl, step_stepped (by decide), by decide, by decide⟩

/-- An edge with `done` for each of the four codes. -/
theorem witness_FinishedCycleHasOneOutcome :
    (stepped { at_ 8#4 small [low] with bitcnt := 40#6 }).done = true ∧
    (stepped { at_ 8#4 small [low] with bitcnt := 40#6 }).err = 0#2 ∧
    (stepped (counted 4000 (at_ 3#4 capped [high]))).done = true ∧
    (stepped (counted 4000 (at_ 3#4 capped [high]))).err = 1#2 ∧
    (stepped { at_ 8#4 small [low] with toSeen := true }).done = true ∧
    (stepped { at_ 8#4 small [low] with toSeen := true }).err = 2#2 ∧
    (stepped { at_ 8#4 small [low] with sr := 1#40 }).done = true ∧
    (stepped { at_ 8#4 small [low] with sr := 1#40 }).err = 3#2 ∧
    step (at_ 8#4 small [low]) = .next (stepped (at_ 8#4 small [low])) ∧ (at_ 8#4 small [low]).pins.rst = false :=
  ⟨by decide, by decide, by decide, by decide, by decide, by decide, by decide, by decide, step_stepped (by decide), rfl⟩

/-- A state outside each of the exceptions the clauses name, a counted pulse sample, and `START_LOW`. -/
theorem witness_RegistersAreWrittenOnlyByTheirRules :
    (at_ 2#4 small [low]).pins.rst = false ∧ (at_ 2#4 small [low]).pins.start = false ∧
    step (at_ 2#4 small [low]) = .next (stepped (at_ 2#4 small [low])) ∧
    (counted 4 (at_ 7#4 small [high])).iter < small.bitCeil ∧ (at_ 1#4 small [low]).st = 1#4 ∧
    step (counted 4 (at_ 7#4 small [high])) = .next (stepped (counted 4 (at_ 7#4 small [high]))) ∧
    step (at_ 1#4 small [low]) = .next (stepped (at_ 1#4 small [low])) :=
  ⟨rfl, rfl, step_stepped (by decide), by decide, rfl, step_stepped (by decide), step_stepped (by decide)⟩

theorem witness_LineIsReadOnlyInWaitStates :
    (at_ 2#4 small []).st.toNat < 3 ∧ 8 ≤ (at_ 8#4 small []).st.toNat := by decide

theorem witness_StartIsIgnoredWhileBusy : (at_ 1#4 small [request]).busy = true ∧ 1 ≤ 1 := by decide

/-- Two states that differ in `diag_en` and in a strobe, and two that differ in a diagnostics register. -/
theorem witness_DiagnosticsAreInvisible :
    (at_ 7#4 small [low]).params.ok = true ∧
    (at_ 7#4 small [low]).eraseDiagEn =
      { at_ 7#4 small [{ low with diagEn := false }] with diagBitStb := true }.eraseDiagEn ∧
    at_ 7#4 small [low] ≠ { at_ 7#4 small [{ low with diagEn := false }] with diagBitStb := true } ∧
    (at_ 7#4 small [low]).eraseDiagnostics = { at_ 7#4 small [low] with diagGap := 5 }.eraseDiagnostics ∧
    at_ 7#4 small [low] ≠ { at_ 7#4 small [low] with diagGap := 5 } := by decide

/-- A block that has a result and one that comes from reset. -/
theorem witness_AcceptedStartForgetsEarlierCycles :
    let u : State := { at_ 0#4 small [request] with valid := true, sr := 0x3C00170053#40, bitcnt := 40#6, tmr := 1 }
    (at_ 0#4 small [request]).params.ok = true ∧ u.params = small ∧ u.inputs = (at_ 0#4 small [request]).inputs ∧
    u.held = (at_ 0#4 small [request]).held ∧ u.edge = (at_ 0#4 small [request]).edge ∧ (at_ 0#4 small [request]).st = 0#4 ∧ u.st = 0#4 ∧
    (at_ 0#4 small [request]).pins.rst = false ∧ (at_ 0#4 small [request]).pins.start = true := by decide

theorem witness_ResultHoldsWhileIdle :
    (at_ 0#4 small [low, high]).params.ok = true ∧ (at_ 0#4 small [low, high]).st = 0#4 ∧ noReset [low, high] ∧
    (∀ x ∈ [low, high], x.start = false) ∧ (at_ 0#4 small [low, high]).inputs = [low, high] ++ [] :=
  ⟨by decide, rfl, by simp [noReset, low, high], by simp [low, high], rfl⟩

/-- The acceptance takes the result of the last cycle away. -/
theorem witness_ResultOutputsChangeOnlyAtCycleEnds :
    let s : State := { { at_ 0#4 small [] with valid := true, sr := 0x3C00170053#40, bitcnt := 40#6 } with
      inputs := [request] }
    s.Inv ∧ step s = .next (stepped s) ∧ (stepped s).valid ≠ s.valid ∧ (stepped s).dataOutputs ≠ s.dataOutputs :=
  ⟨inv_setInputs _ inv_result, step_stepped (by decide), by decide, by decide⟩

/-- Both clauses at their boundaries: a run of the ceiling 3, and one of 4. -/
theorem witness_HighRunDecodesByItsLength :
    { counted 1 (at_ 6#4 tiny []) with inputs := [low] ++ [high, high, high] ++ [low, low] }.Inv ∧
    { counted 1 (at_ 6#4 tiny []) with inputs := [] ++ [high, high, high, high] ++ [low] }.Inv ∧
    noReset ([low] ++ [high, high, high]) ∧ noReset ([] ++ [high, high, high, high]) ∧
    (∀ x ∈ [low], x.lineIn = false) ∧ (∀ x ∈ [high, high, high, high], x.lineIn = true) ∧
    [high, high, high].length ≤ tiny.bitCeil ∧ [high, high, high, high].length = tiny.bitCeil + 1 :=
  ⟨inv_setInputs _ inv_gap, inv_setInputs _ inv_gap, by simp [noReset, low, high], by simp [noReset, high],
    by simp [low], by simp [high], by decide, by decide⟩

theorem witness_BitHighVisitIsBounded :
    { counted 1 (at_ 7#4 tiny []) with inputs := [high, low, low] ++ [] }.Inv ∧ noReset [high, low, low] ∧
    [high, low, low].length = tiny.bitCeil :=
  ⟨inv_setInputs _ inv_pulse, by simp [noReset, low, high], by decide⟩

/-- With one bit missing: a low run of `g` = 2 and then high samples. -/
theorem witness_DataPhaseEndsWhenGapsEnd :
    State.Inv { { counted 1 (at_ 6#4 tiny []) with sr := 5#40, bitcnt := 39#6 } with
      inputs := [low, low, high, high, low, high] ++ [high] } ∧
    noReset ([low, low, high, high, low, high] ++ [high]) ∧
    (∀ before lows later, [low, low, high, high, low, high] = before ++ lows ++ later →
      (∀ x ∈ lows, x.lineIn = false) → lows.length ≤ 2) ∧
    [low, low, high, high, low, high].length = (40 - (39#6).toNat) * (2 + tiny.bitCeil + 1) ∧ [high] ≠ [] := by
  refine ⟨inv_setInputs _ inv_last_gap, by simp [noReset, low, high], ?_, by decide, by simp⟩
  intro before lows later e hl
  have key : ∀ n, n ≤ 6 → ∀ m, m ≤ 6 - n →
      (∀ x ∈ ([low, low, high, high, low, high].drop n).take m, x.lineIn = false) → m ≤ 2 := by decide
  have hlen := congrArg List.length e
  simp only [List.length_append, List.length_cons, List.length_nil] at hlen
  have hd : ([low, low, high, high, low, high].drop before.length).take lows.length = lows := by
    rw [e]; simp
  exact key before.length (by omega) lows.length (by omega) (by rw [hd]; exact hl)

/-- With one bit missing, and with all forty missing. -/
theorem witness_StuckHighLineEndsInBitTimeout :
    State.Inv { { counted 1 (at_ 6#4 tiny []) with sr := 5#40, bitcnt := 39#6 } with
      inputs := List.replicate 4 high ++ low :: [] } ∧
    State.Inv { counted 1 (at_ 6#4 tiny []) with inputs := List.replicate 160 high ++ low :: [] } ∧
    noReset (List.replicate 4 high) ∧ noReset (List.replicate 160 high) ∧
    (∀ n, ∀ x ∈ List.replicate n high, x.lineIn = true) ∧
    (List.replicate 4 high).length = (40 - (39#6).toNat) * (tiny.bitCeil + 1) ∧
    (List.replicate 160 high).length = (40 - (0#6).toNat) * (tiny.bitCeil + 1) ∧ low.rst = false :=
  ⟨inv_setInputs _ inv_last_gap, inv_setInputs _ inv_gap, fun _ h => by rw [List.eq_of_mem_replicate h]; rfl,
    fun _ h => by rw [List.eq_of_mem_replicate h]; rfl, fun _ _ h => by rw [List.eq_of_mem_replicate h]; rfl,
    List.length_replicate.trans (by decide), List.length_replicate.trans (by decide), rfl⟩

/-- The whole answer of a sensor to `tiny`: the handshake at its cap, a pulse of the ceiling for bit 7, one of the
threshold for bit 39, and short pulses for the other bits. -/
def answerWidth (n : Fin 40) : Nat := if n = 7 then 3 else if n = 39 then 2 else 1

def answer : List Inputs :=
  lineInputs true (waveSamples ([.high 2, .low 2, .high 1]
    ++ (List.ofFn fun n => [Token.low 1, Token.high (answerWidth n)]).flatten ++ [.low 1]))

theorem lineOf_lineInputs (d : Bool) (xs : List Bool) : lineOf (lineInputs d xs) = xs := by
  simp [lineOf, lineInputs, Function.comp_def, linePins]

theorem noReset_lineInputs (d : Bool) (xs : List Bool) : noReset (lineInputs d xs) := by
  intro x h
  obtain ⟨_, _, rfl⟩ := List.mem_map.1 h
  rfl

theorem witness_CycleDecodesTheFrame :
    tiny.ok = true ∧ (at_ 0#4 tiny (request :: ([low, high] ++ answer ++ high :: []))).st = 0#4 ∧
    request.rst = false ∧ request.start = true ∧ noReset [low, high] ∧ noReset answer ∧ high.rst = false ∧
    [low, high].length = tiny.startLowTicks + tiny.startHighTicks ∧
    lineOf answer = waveSamples ([.high 2, .low 2, .high 1]
      ++ (List.ofFn fun n => [Token.low 1, Token.high (answerWidth n)]).flatten ++ [.low 1]) ∧
    (∀ n, 1 ≤ answerWidth n ∧ answerWidth n ≤ tiny.bitCeil) ∧
    (∀ cap, tiny.hsWaitCap = some cap → 2 ≤ cap ∧ 2 ≤ cap ∧ 1 ≤ cap) ∧
    (∀ n : Fin 40, (0x0100000001#40).getLsbD (39 - n) = decide (tiny.thresholdTicks ≤ answerWidth n)) :=
  ⟨by decide, rfl, rfl, rfl, by simp [noReset, low, high], noReset_lineInputs _ _, rfl, rfl, lineOf_lineInputs _ _,
    by decide, by rintro cap h; cases h; decide, by decide⟩

/-- The state after `k` edges, or the reset state where a step stops. -/
def ran (k : Nat) (s : State) : State :=
  match runEdges k s with
  | .next t => t
  | _ => State.reset

/-- A wait without a cap and `BIT_GAP` under one, with nothing left in the queue. -/
theorem witness_HeldLineHangsForEver :
    (∀ ph ∈ handshakePhases, State.Inv { at_ ph.code small [] with held := some (atLevel ph.level) } ∧
      (at_ ph.code small []).inputs = [] ∧ (atLevel ph.level).rst = false ∧ (atLevel ph.level).lineIn = ph.level ∧
      small.hsWaitCap = none) ∧
    State.Inv { counted 1 (at_ 6#4 tiny []) with held := some low } ∧ low.rst = false ∧ low.lineIn = false :=
  ⟨fun ph h => ⟨inv_setHeld _ (inv_wait ph h), rfl, rfl, rfl, rfl⟩, inv_setHeld _ inv_gap, rfl, rfl⟩

/-- `H2 L1 H*`: the last sample of a token, the last sample of the tokens, and the first and a later held sample. -/
theorem witness_WaveformIsReadFromItsFirstSample :
    let w : Waveform := ⟨[.high 2, .low 1], some .highForever⟩
    1 < 2 ∧ (waveSamples w.tokens).length ≤ 3 ∧ w.sample 1 = some true ∧ w.sample 2 = some false ∧
    w.sample 3 = some true ∧ w.sample 99 = some true ∧
    tiny.ok = true ∧ (at_ 0#4 tiny []).st = 0#4 ∧ request.rst = false ∧ request.start = true ∧
    (∀ x ∈ [low, high], x.rst = false) ∧ [low, high].length = tiny.startLowTicks + tiny.startHighTicks ∧
    (∀ x ∈ [high, high], x.rst = false) ∧ [high, high].length = [low, high].length := by decide

/-- `CHECK` of a whole frame that passes; and the run of `witness_CycleDecodesTheFrame` from reset, which ends with
`valid` = 1. -/
theorem witness_ValidReadingIsSound :
    (State.Inv { at_ 8#4 small [] with inputs := [low], sr := 0x3C00170053#40, bitcnt := 40#6 } ∧
      step { at_ 8#4 small [low] with sr := 0x3C00170053#40, bitcnt := 40#6 } =
        .next (stepped { at_ 8#4 small [low] with sr := 0x3C00170053#40, bitcnt := 40#6 }) ∧
      (stepped { at_ 8#4 small [low] with sr := 0x3C00170053#40, bitcnt := 40#6 }).valid = true) ∧
    ∃ t, runEdges 93 (State.resetWith tiny (request :: ([low, high] ++ answer ++ high :: [])) none) = .next t ∧
      t.valid = true := by
  refine ⟨⟨inv_setInputs [low] inv_check, step_stepped (by decide), by decide⟩, ?_⟩
  obtain ⟨t, h, -⟩ := runEdges_total
    (s := State.resetWith tiny (request :: ([low, high] ++ answer ++ high :: [])) none) (by decide) 93
  refine ⟨t, h, ?_⟩
  have e : t = ran 93 (State.resetWith tiny (request :: ([low, high] ++ answer ++ high :: [])) none) := by rw [ran, h]
  rw [e]
  decide +kernel

/-- `small` with the narrowest counters that R10 allows it. -/
def narrow : Params := { small with tmrW := 3, iterW := 3 }

/-- A handshake wait that has counted nine samples, more than the narrow counters hold: 9 beside 7. -/
theorem witness_CounterWidthsAreInvisible :
    (counted 9 (at_ 3#4 small [high])).Inv ∧ (counted 7 (at_ 3#4 narrow [high])).Inv ∧
    (counted 9 (at_ 3#4 small [high])).Lockstep (counted 7 (at_ 3#4 narrow [high])) ∧
    step (counted 9 (at_ 3#4 small [high])) = .next (stepped (counted 9 (at_ 3#4 small [high]))) ∧
    small.ok = true ∧ narrow.ok = true := by
  refine ⟨?_, ?_, ?_, step_stepped (by decide), by decide, by decide⟩
  · constructor <;> first | decide | exact fun h => absurd h (by decide)
  · constructor <;> first | decide | exact fun h => absurd h (by decide)
  · exact ⟨⟨3, 3, rfl⟩, rfl, ⟨rfl, rfl, rfl⟩, ⟨rfl, rfl, rfl⟩, rfl, rfl, rfl, ⟨9, by decide⟩, ⟨9, by decide⟩, ⟨0, by decide⟩,
      ⟨0, by decide⟩, ⟨0, by decide⟩⟩

theorem witness_DocumentPulsesFixTheClockRange : Params.hardware.thresholdTicks = 280 := by decide

end Sys2Proof.Tests
end

/-! PROOFS. O8: the parameter sets the step refuses. -/

namespace Sys2Proof.Machine

/-- The step refuses a state exactly when its parameter set fails the check. -/
theorem step_refused_iff (s : State) : step s = .refused .parametersOutOfRange ↔ s.params.ok = false := by
  cases h : s.params.ok
  · simp [step_refused h]
  · simp [step_eq h]

/-- Settles O8: the check the step makes is the conjunction of the constraints of R10 and R11. -/
theorem parametersOutOfRangeAreRefused : Obligations.ParametersOutOfRangeAreRefused := by
  intro s
  rw [step_refused_iff, ← Bool.not_eq_true, Params.ok_iff]
  rfl

end Sys2Proof.Machine

/-! PROOFS. One edge keeps the invariant (`State.Inv`). The edges of a cycle that record no bit and end nothing move
only `st`, `tmr`, `iter` and `gap_lat`; the rules about the first three stand in `CountersFit`, and those about a result in
`ResultFits`, so that an edge owes only the rules about what it moves. -/

namespace Sys2Proof.Machine

/-- Both counters have room for one sample (00_scope.md R11). -/
theorem Params.one_le_max {p : Params} (hp : p.ok = true) : 1 ≤ p.tmrMax ∧ 1 ≤ p.iterMax := by
  have := Params.ok_threshold hp
  have := Params.ok_ceil hp
  omega

/-- The comparator compares with a number within the width of `tmr`. -/
theorem Params.threshold_le_tmrMax {p : Params} (hp : p.ok = true) : p.thresholdTicks ≤ p.tmrMax := by
  have := Params.ok_threshold hp
  have := Params.ok_ceil hp
  omega

/-- The rules of `State.Inv` on the two counters under the operation with code `code`. -/
structure CountersFit (p : Params) (code : StCode) (tmr iter : Nat) : Prop where
  tmrFits : tmr ≤ p.tmrMax
  iterFits : iter ≤ p.iterMax
  startLowCount : code = 1#4 → tmr < p.startLowTicks
  startHighCount : code = 2#4 → tmr < p.startHighTicks
  capCount : 3 ≤ code.toNat → code.toNat ≤ 5 → ∀ c, p.hsWaitCap = some c → iter ≤ c
  pulseCount : code = 7#4 → tmr = iter ∧ 1 ≤ iter ∧ iter ≤ p.bitCeil
  oneCount : 3 ≤ code.toNat → code.toNat ≤ 7 → tmr = iter ∨ tmr = p.tmrMax ∨ iter = p.iterMax

theorem State.Inv.countersFit {s : State} (hs : s.Inv) : CountersFit s.params s.st s.tmr s.iter :=
  { hs with }

/-- A wait state may start with both counters at 0 or 1 (40_handshake.md R79), `BIT_HIGH` at 1 alone (41_bit_decoder.md
R97). -/
theorem CountersFit.restart {p : Params} (hp : p.ok = true) {code : StCode} (h3 : 3 ≤ code.toNat) {n : Nat} (hn : n ≤ 1)
    (h7 : code = 7#4 → n = 1) : CountersFit p code n n := by
  obtain ⟨h1, htc⟩ := Params.ok_threshold hp
  obtain ⟨ht, hi⟩ := Params.one_le_max hp
  have hne : ∀ c : StCode, c.toNat < 3 → code ≠ c := by rintro _ hc rfl; omega
  exact {
    tmrFits := hn.trans ht
    iterFits := hn.trans hi
    startLowCount := fun h => absurd h (hne _ (by decide))
    startHighCount := fun h => absurd h (hne _ (by decide))
    capCount := fun _ _ c hc => hn.trans (Params.ok_cap hp hc).1
    pulseCount := fun h => by have := h7 h; omega
    oneCount := fun _ _ => .inl rfl }

/-- The start signal counts in `tmr` alone and below its length (40_handshake.md R77, R78). -/
theorem CountersFit.start {p : Params} {code : StCode} (h3 : code.toNat < 3) {tmr iter : Nat} (ht : tmr ≤ p.tmrMax)
    (hi : iter ≤ p.iterMax) (hlow : code = 1#4 → tmr < p.startLowTicks)
    (hhigh : code = 2#4 → tmr < p.startHighTicks) : CountersFit p code tmr iter where
  tmrFits := ht
  iterFits := hi
  startLowCount := hlow
  startHighCount := hhigh
  capCount h := by omega
  pulseCount := by rintro rfl; contradiction
  oneCount h := by omega

/-- A wait state counts one more sample while its cap or ceiling is not reached (40_handshake.md R79, R83;
41_bit_decoder.md R99). -/
theorem CountersFit.count {p : Params} (hp : p.ok = true) {code : StCode} (h3 : 3 ≤ code.toNat) {tmr iter : Nat}
    (h : CountersFit p code tmr iter)
    (hcap : code.toNat ≤ 5 → ∀ c, p.hsWaitCap = some c → iter < c) (hceil : code = 7#4 → iter < p.bitCeil) :
    CountersFit p code (incT p tmr) (incI p iter) := by
  have ht := h.tmrFits
  have hi := h.iterFits
  have hne : ∀ c : StCode, c.toNat < 3 → code ≠ c := by rintro _ hc rfl; omega
  refine
  { tmrFits := incT_le p tmr
    iterFits := incI_le p iter
    startLowCount := fun h => absurd h (hne _ (by decide))
    startHighCount := fun h => absurd h (hne _ (by decide))
    capCount := fun _ h5 c hc => ?cap
    pulseCount := fun h7 => ?pulse
    oneCount := fun _ h7 => ?one }
  case cap =>
    have := hcap h5 c hc
    simp only [incI]; omega
  case pulse =>
    obtain ⟨heq, -, -⟩ := h.pulseCount h7
    have := hceil h7
    obtain ⟨hci, hct⟩ := Params.ok_ceil hp
    rw [incT_of_lt (by omega), incI_of_lt (by omega)]; omega
  case one =>
    have := h.oneCount h3 h7
    simp only [incT, incI]; omega

/-- An edge inside a cycle that moves `st`, the counters and the gap alone, before the data phase or inside it. -/
theorem State.Inv.move {s : State} (hs : s.Inv) {code : StCode} {tmr iter gap : Nat}
    (hcode : (1 ≤ s.st.toNat ∧ s.st.toNat ≤ 5 ∧ 1 ≤ code.toNat ∧ code.toNat ≤ 6) ∨
      ((s.st = 6#4 ∨ s.st = 7#4) ∧ (code = 6#4 ∨ code = 7#4)))
    (hfit : CountersFit s.params code tmr iter) (hgap : gap ≤ s.params.tmrMax) :
    State.Inv { s.edgeFrame with st := code, tmr := tmr, iter := iter, gapLat := gap } := by
  have hbusy : s.st ≠ 0#4 := by
    rintro h; rw [h] at hcode; simp at hcode
  have hlt : s.bitcnt.toNat < 40 := by
    rcases hcode with ⟨h1, h5, -, -⟩ | ⟨h, -⟩
    · rw [(hs.beforeData h1 h5).1]; decide
    · exact hs.inData h
  have hle : code.toNat ≤ 7 := by
    rcases hcode with ⟨-, -, -, h⟩ | ⟨-, rfl | rfl⟩
    exacts [by omega, by decide, by decide]
  obtain ⟨hvalid, herr, -⟩ := hs.noResultWhileBusy hbusy
  exact { hfit, hs with
    gapFits := hgap
    legalCode := hle.trans (by decide)
    beforeData := fun h1 h5 => by
      rcases hcode with ⟨h1', h5', -, -⟩ | ⟨-, rfl | rfl⟩
      · exact hs.beforeData h1' h5'
      all_goals contradiction
    inData := fun _ => hlt
    atCheck := by rintro rfl; contradiction
    noResultWhileBusy := fun _ => ⟨hvalid, herr, rfl⟩
    doneIdle := by rintro ⟨⟩
    byteStrobe := by rintro ⟨⟩ }

/-- An edge that completes a bit, whatever the bit (41_bit_decoder.md R102). -/
theorem State.Inv.afterBit {s : State} (hs : s.Inv) (hst : s.st = 7#4) (b timedOut : Bool) {w n : Nat}
    (hw : w ≤ s.params.tmrMax) (hn : n ≤ 1) : (s.afterBit b timedOut w n).Inv := by
  obtain ⟨hvalid, herr, -⟩ := hs.noResultWhileBusy (by rw [hst]; decide)
  have hlt := hs.inData (.inr hst)
  have hst' : ((s.afterBit b timedOut w n).st = 8#4 ∧ s.bitcnt = 39#6) ∨
      ((s.afterBit b timedOut w n).st = 6#4 ∧ s.bitcnt ≠ 39#6) := by
    by_cases h : s.bitcnt = 39#6 <;> simp [State.afterBit, h]
  have hcnt : (s.afterBit b timedOut w n).bitcnt.toNat = s.bitcnt.toNat + 1 := by
    simp [State.afterBit]; omega
  have hfit : CountersFit s.params (s.afterBit b timedOut w n).st n n := by
    rcases hst' with ⟨h, -⟩ | ⟨h, -⟩ <;> rw [h] <;> exact .restart hs.paramsOk (by decide) hn (by rintro ⟨⟩)
  have hframe : (s.afterBit b timedOut w n).sr.toNat < 2 ^ (s.bitcnt.toNat + 1) := by
    have := hs.frameFilled
    have hb := Bool.toNat_le b
    rw [State.afterBit, ← shiftIn_eq, shiftIn_toNat, Nat.pow_succ]
    exact (Nat.mod_le _ _).trans_lt (by omega)
  exact { hfit with
    paramsOk := hs.paramsOk
    legalCode := by rcases hst' with ⟨h, -⟩ | ⟨h, -⟩ <;> rw [h] <;> decide
    bitcntMax := by omega
    frameFilled := by rw [hcnt]; exact hframe
    gapFits := hs.gapFits
    diagGapFits := hs.gapFits
    diagWidthFits := hw
    beforeData := fun _ h5 => by rcases hst' with ⟨h, -⟩ | ⟨h, -⟩ <;> rw [h] at h5 <;> contradiction
    inData := fun h67 => by
      rcases hst' with ⟨h, -⟩ | ⟨-, h⟩
      · rw [h] at h67; simp at h67
      · rw [hcnt]; have : s.bitcnt.toNat ≠ 39 := fun e => h (BitVec.eq_of_toNat_eq e)
        omega
    atCheck := fun h8 => by
      rcases hst' with ⟨-, h⟩ | ⟨h, -⟩
      · simp [State.afterBit, h]
      · rw [h] at h8; cases h8
    noResultWhileBusy := fun _ => ⟨hvalid, herr, rfl⟩
    validSound := fun h => by cases hvalid.symm.trans h
    handshakeCode := fun h => by cases herr.symm.trans h
    timeoutCode := fun h => by cases herr.symm.trans h
    checksumCode := fun h => by cases herr.symm.trans h
    doneIdle := by rintro ⟨⟩
    byteStrobe := by simp [State.afterBit]
    byteIdxMax := by
      have := hs.byteIdxMax
      simp only [State.afterBit]; split
      · simp; omega
      · exact this }

/-- The rules of `State.Inv` on the result registers `valid` and `err` beside the frame (10_state.md R27, R28). -/
structure ResultFits (s : State) (valid : Bool) (err : ErrCode) : Prop where
  validSound : valid = true →
    err = 0#2 ∧ checksumOk s.params s.sr = true ∧ s.toSeen = false ∧ s.bitcnt = 40#6
  handshakeCode : err = 1#2 → s.bitcnt = 0#6 ∧ s.sr = 0#40 ∧ ∃ c, s.params.hsWaitCap = some c
  timeoutCode : err = 2#2 → s.toSeen = true ∧ s.bitcnt = 40#6
  checksumCode : err = 3#2 → checksumOk s.params s.sr = false ∧ s.toSeen = false ∧ s.bitcnt = 40#6

/-- The verdict of `CHECK` on a whole frame (42_frame_checksum.md R118). -/
theorem ResultFits.verdict {s : State} (h40 : s.bitcnt = 40#6) :
    ResultFits s (verdictValid s.params s.sr s.toSeen) (verdictErr s.params s.sr s.toSeen) := by
  constructor <;> cases hc : checksumOk s.params s.sr <;> cases ht : s.toSeen <;>
    simp_all [verdictValid, verdictErr]

theorem verdictValid_iff (p : Params) (x : Frame) (toSeen : Bool) :
    verdictValid p x toSeen = true ↔ verdictErr p x toSeen = 0#2 := by
  cases hc : checksumOk p x <;> cases toSeen <;> simp [verdictValid, verdictErr, hc]

/-- An edge that leaves the block in `IDLE`, at the end of a cycle or between cycles: what it owes is the result. -/
theorem State.Inv.toIdle {s : State} (hs : s.Inv) {valid done : Bool} {err : ErrCode} (hresult : ResultFits s valid err)
    (hdone : done = true → (valid = true ↔ err = 0#2)) :
    State.Inv { s.edgeFrame with st := 0#4, valid := valid, err := err, done := done } :=
  { hresult, hs with
    legalCode := Nat.zero_le 8
    beforeData := by rintro ⟨⟩
    inData := by rintro (⟨⟨⟩⟩ | ⟨⟨⟩⟩)
    atCheck := by rintro ⟨⟩
    noResultWhileBusy := fun h => absurd rfl h
    startLowCount := by rintro ⟨⟩
    startHighCount := by rintro ⟨⟩
    capCount := by rintro ⟨⟩
    pulseCount := by rintro ⟨⟩
    oneCount := by rintro ⟨⟩
    doneIdle := fun h => ⟨rfl, hdone h⟩
    byteStrobe := by rintro ⟨⟩ }

/-- A reset edge leaves the invariant whatever the state was (70_reset_and_hazards.md R160). -/
theorem State.resetEdge_inv {s : State} (hp : s.params.ok = true) : s.resetEdge.Inv := by
  constructor <;> simp [State.resetEdge, State.reset, hp]

/-- A request empties the frame and the result (40_handshake.md R76). -/
theorem State.Inv.acceptStart {s : State} (hs : s.Inv) : s.clearPulses.acceptStart.nextEdge.Inv := by
  have hlow := (Params.ok_startLow hs.paramsOk).1
  constructor
  case paramsOk => exact hs.paramsOk
  case diagGapFits => exact hs.diagGapFits
  case diagWidthFits => exact hs.diagWidthFits
  case byteIdxMax => exact hs.byteIdxMax
  case startLowCount => exact fun _ => hlow
  all_goals simp

/-- A period of the start signal is counted (40_handshake.md R77, R78). -/
theorem State.Inv.countPeriod {s : State} (hs : s.Inv) (hst : s.st = 1#4 ∨ s.st = 2#4)
    (hlow : s.st = 1#4 → s.tmr < s.params.startLowTicks - 1)
    (hhigh : s.st = 2#4 → s.tmr < s.params.startHighTicks - 1) : s.clearPulses.countPeriod.nextEdge.Inv := by
  have hinc : incT s.params s.tmr ≤ s.tmr + 1 := Nat.min_le_left _ _
  refine hs.move (code := s.st) (tmr := incT s.params s.tmr) (.inl ?_)
    (.start ?_ (incT_le _ _) hs.iterFits ?_ ?_) hs.gapFits
  · rcases hst with h | h <;> rw [h] <;> decide
  · rcases hst with h | h <;> rw [h] <;> decide
  · intro h; have := hlow h; omega
  · intro h; have := hhigh h; omega

/-- A sample is counted in a wait state (40_handshake.md R79, 41_bit_decoder.md R96, R99). -/
theorem State.Inv.countSample {s : State} (hs : s.Inv) (h3 : 3 ≤ s.st.toNat) (h7 : s.st.toNat ≤ 7)
    (hcap : s.st.toNat ≤ 5 → ∀ c, s.params.hsWaitCap = some c → s.iter < c)
    (hceil : s.st = 7#4 → s.iter < s.params.bitCeil) : s.clearPulses.countSample.nextEdge.Inv := by
  refine hs.move (code := s.st) ?_ (hs.countersFit.count hs.paramsOk h3 hcap hceil) hs.gapFits
  by_cases h5 : s.st.toNat ≤ 5
  · exact .inl (by omega)
  · have : s.st = 6#4 ∨ s.st = 7#4 := by simp only [← BitVec.toNat_inj]; simp; omega
    exact .inr ⟨this, this⟩

/-- The cap of a handshake wait is not reached: every cap there is lies above `iter`. -/
theorem State.lt_cap_of_not_reached {s : State} (h : s.capReached = false) {c : Nat}
    (hc : s.params.hsWaitCap = some c) : s.iter < c := by
  by_contra hle
  have := (s.capReached_iff).2 ⟨c, hc, by omega⟩
  simp [h] at this

/-- The codes of the handshake waits are 3, 4 and 5, each followed by the next. -/
theorem HandshakePhase.code_bounds {ph : HandshakePhase} (h : ph ∈ handshakePhases) :
    3 ≤ ph.code.toNat ∧ ph.code.toNat ≤ 5 ∧ ph.next.toNat = ph.code.toNat + 1 := by
  rcases ph.code_cases h with ⟨h, -, h'⟩ | ⟨h, -, h'⟩ | ⟨h, -, h'⟩ <;> rw [h, h'] <;> decide

/-- INVARIANT STEP: every case of an edge keeps the invariant. -/
theorem State.Inv.edge {s t : State} (hs : s.Inv) (h : EdgeCase s t) : t.Inv := by
  have hp := hs.paramsOk
  cases h
  case reset => exact State.resetEdge_inv hp
  case idleStay hst _ =>
    have := hs.toIdle (done := false) { hs with } (by rintro ⟨⟩)
    rwa [← hst] at this
  case idleAccept => exact hs.acceptStart
  case startLowCount hst htmr =>
    exact hs.countPeriod (.inl hst) (fun _ => htmr) (by rw [hst]; rintro ⟨⟩)
  case startLowEnd hst _ =>
    have hhigh := (Params.ok_startHigh hp).1
    exact hs.move (code := 2#4) (.inl (by rw [hst]; decide))
      (.start (by decide) (Nat.zero_le _) hs.iterFits (by rintro ⟨⟩) (fun _ => hhigh)) hs.gapFits
  case startHighCount hst htmr =>
    exact hs.countPeriod (.inr hst) (by rw [hst]; rintro ⟨⟩) (fun _ => htmr)
  case startHighEnd hst _ =>
    exact hs.move (code := 3#4) (.inl (by rw [hst]; decide))
      (.restart hp (by decide) (Nat.zero_le 1) (by rintro ⟨⟩)) hs.gapFits
  case waitLeave ph next hph hnext _ hst _ =>
    obtain ⟨h3, h5, h'⟩ := ph.code_bounds hph
    rw [← hst, hnext] at h'
    rw [← hst] at h3 h5
    exact hs.move (code := encode next) (.inl (by omega)) (.restart hp (by omega) le_rfl (fun _ => rfl)) hs.gapFits
  case waitAbort ph hph _ hst _ hcap =>
    obtain ⟨h3, h5, -⟩ := ph.code_bounds hph
    rw [← hst] at h3 h5
    obtain ⟨hcnt, hsr, -⟩ := hs.beforeData (by omega) h5
    obtain ⟨c, hc, -⟩ := (State.capReached_iff _).1 hcap
    exact hs.toIdle (valid := false) (err := 1#2)
      ⟨by rintro ⟨⟩, fun _ => ⟨hcnt, hsr, c, hc⟩, by rintro ⟨⟩, by rintro ⟨⟩⟩ (by simp)
  case waitCount ph hph _ hst _ hcap =>
    obtain ⟨h3, h5, -⟩ := ph.code_bounds hph
    rw [← hst] at h3 h5
    refine hs.countSample h3 (by omega) (fun _ c hc => State.lt_cap_of_not_reached hcap hc) ?_
    rintro h; rw [h] at h5; contradiction
  case gapCount hst _ =>
    exact hs.countSample (by rw [hst]; decide) (by rw [hst]; decide) (by rw [hst]; intro h; contradiction)
      (by rw [hst]; rintro ⟨⟩)
  case gapEnd hst _ =>
    exact hs.move (code := 7#4) (.inr ⟨.inl hst, .inr rfl⟩) (.restart hp (by decide) le_rfl (fun _ => rfl)) hs.tmrFits
  case pulseCount hst _ hiter =>
    exact hs.countSample (by rw [hst]; decide) (by rw [hst]; decide) (by rw [hst]; intro h; contradiction)
      (fun _ => hiter)
  case pulseTimeout hst _ _ =>
    rw [(State.completeBit_eq_afterBit false (incT s.params s.tmr) 0 s).2]
    exact hs.afterBit hst _ _ (incT_le _ _) (Nat.zero_le 1)
  case pulseEnd hst _ =>
    rw [(State.completeBit_eq_afterBit (classify s.params s.tmr) s.tmr 1 s).1]
    exact hs.afterBit hst _ _ hs.tmrFits le_rfl
  case verdict hst =>
    exact hs.toIdle (.verdict (hs.atCheck hst)) (fun _ => verdictValid_iff _ _ _)
  case reserved hst => have := hs.legalCode; omega

/-- The invariant along an edge with parameters in range. -/
theorem State.Inv.after {s : State} (hs : s.Inv) : s.after.Inv := hs.edge s.after_cases

end Sys2Proof.Machine

/-! PROOFS. O51: two blocks that differ in the widths of their counters alone run in lockstep. Each operation of the
model keeps `State.Lockstep`, because every number a counter is compared with lies within both widths (00_scope.md R11). -/

namespace Sys2Proof.Machine

/-! ### One count kept in two widths -/

theorem sameCount.of_le {n maxA maxB : Nat} (ha : n ≤ maxA) (hb : n ≤ maxB) : sameCount n maxA n maxB :=
  ⟨n, (min_eq_left ha).symm, (min_eq_left hb).symm⟩

/-- The saturating increment, in both widths. -/
theorem sameCount.inc {a maxA b maxB : Nat} (h : sameCount a maxA b maxB) :
    sameCount (min (a + 1) maxA) maxA (min (b + 1) maxB) maxB := by
  obtain ⟨n, rfl, rfl⟩ := h
  exact ⟨n + 1, by omega, by omega⟩

/-- A comparison with a number within both widths comes out the same. -/
theorem sameCount.le_iff {a maxA b maxB k : Nat} (h : sameCount a maxA b maxB) (hA : k ≤ maxA) (hB : k ≤ maxB) :
    k ≤ a ↔ k ≤ b := by
  obtain ⟨n, rfl, rfl⟩ := h
  omega

theorem sameCount.lt_iff {a maxA b maxB k : Nat} (h : sameCount a maxA b maxB) (hA : k ≤ maxA) (hB : k ≤ maxB) :
    a < k ↔ b < k := by
  rw [← not_le, ← not_le, h.le_iff hA hB]

namespace State.Lockstep

/-! ### What two states in lockstep share -/

section
variable {s u : State}

theorem st (h : s.Lockstep u) : u.st = s.st := congrArg (·.1) h.control
theorem bitcnt (h : s.Lockstep u) : u.bitcnt = s.bitcnt := congrArg (·.2.1) h.control
theorem sr (h : s.Lockstep u) : u.sr = s.sr := congrArg (·.2.2.1) h.control
theorem toSeen (h : s.Lockstep u) : u.toSeen = s.toSeen := congrArg (·.2.2.2.1) h.control
theorem valid (h : s.Lockstep u) : u.valid = s.valid := congrArg (·.2.2.2.2.1) h.control
theorem err (h : s.Lockstep u) : u.err = s.err := congrArg (·.2.2.2.2.2.1) h.control

theorem done (h : s.Lockstep u) : u.done = s.done := congrArg (·.2.2.2.2.2.2) h.control

theorem pins (h : s.Lockstep u) : u.pins = s.pins := by
  simp only [State.pins, h.inputs, h.held, h.edge]

theorem lineRead (h : s.Lockstep u) : u.lineRead = s.lineRead := congrArg Inputs.lineIn h.pins

/-- The parameters other than the two widths. -/
theorem sameParams (h : s.Lockstep u) : u.params.startLowTicks = s.params.startLowTicks ∧
    u.params.startHighTicks = s.params.startHighTicks ∧ u.params.thresholdTicks = s.params.thresholdTicks ∧
    u.params.bitCeil = s.params.bitCeil ∧ u.params.hsWaitCap = s.params.hsWaitCap ∧
    u.params.csumWide = s.params.csumWide := by
  obtain ⟨tw, iw, hp⟩ := h.params
  simp [hp]

/-! ### The operations, each once -/

theorem clearPulses (h : s.Lockstep u) : s.clearPulses.Lockstep u.clearPulses :=
  { h with
    control := by simp [State.control, h.st, h.bitcnt, h.sr, h.toSeen, h.valid, h.err]
    bitRecord := ⟨rfl, h.bitRecord.2⟩
    byteRecord := ⟨rfl, h.byteRecord.2⟩ }

theorem nextEdge (h : s.Lockstep u) : s.nextEdge.Lockstep u.nextEdge :=
  { h with
    inputs := congrArg List.tail h.inputs
    edge := congrArg (· + 1) h.edge }

theorem countPeriod (h : s.Lockstep u) : s.countPeriod.Lockstep u.countPeriod :=
  { h with tmr := h.tmr.inc }

theorem countSample (h : s.Lockstep u) : s.countSample.Lockstep u.countSample :=
  { h with tmr := h.tmr.inc, iter := h.iter.inc }

theorem acceptStart (h : s.Lockstep u) : s.acceptStart.Lockstep u.acceptStart :=
  { h with
    control := by simp [State.control, h.done]
    tmr := .of_le (Nat.zero_le _) (Nat.zero_le _)
    iter := .of_le (Nat.zero_le _) (Nat.zero_le _)
    gapLat := .of_le (Nat.zero_le _) (Nat.zero_le _) }

theorem endStartLow (h : s.Lockstep u) : s.endStartLow.Lockstep u.endStartLow :=
  { h with
    control := congrArg (Prod.mk 2#4 ·.2) h.control
    tmr := .of_le (Nat.zero_le _) (Nat.zero_le _) }

theorem reservedOp (h : s.Lockstep u) : s.reservedOp.Lockstep u.reservedOp :=
  { h with control := congrArg (Prod.mk 0#4 ·.2) h.control }

theorem endCycle (h : s.Lockstep u) (valid : Bool) (err : ErrCode) :
    (s.endCycle valid err).Lockstep (u.endCycle valid err) :=
  { h with control := by simp [State.control, h.bitcnt, h.sr, h.toSeen] }

theorem markBitTimeout (h : s.Lockstep u) : s.markBitTimeout.Lockstep u.markBitTimeout :=
  { h with control := congrArg (fun c => (c.1, c.2.1, c.2.2.1, true, c.2.2.2.2)) h.control }

theorem latchGap (h : s.Lockstep u) {gap gap' : Nat}
    (hgap : sameCount gap s.params.tmrMax gap' u.params.tmrMax) : (s.latchGap gap).Lockstep (u.latchGap gap') :=
  { h with gapLat := hgap }

theorem completeBit (h : s.Lockstep u) (b t : Bool) {w w' : Nat}
    (hw : sameCount w s.params.tmrMax w' u.params.tmrMax) : (s.completeBit b t w).Lockstep (u.completeBit b t w') where
  params := by simpa using h.params
  control := by
    simp only [State.control, completeBit_st, completeBit_bitcnt, completeBit_sr, completeBit_toSeen,
      completeBit_valid, completeBit_err, completeBit_done, h.bitcnt, h.sr, h.toSeen, h.valid, h.err, h.done]
  bitRecord := by simp [h.pins]
  byteRecord := by simp [h.pins, h.bitcnt, h.sr, h.byteRecord]
  inputs := by simpa using h.inputs
  held := by simpa using h.held
  edge := by simpa using h.edge
  tmr := by simpa using h.tmr
  iter := by simpa using h.iter
  gapLat := by simpa using h.gapLat
  diagGap := by simpa using h.gapLat
  diagWidth := by simpa using hw

theorem resetEdge (h : s.Lockstep u) : s.resetEdge.Lockstep u.resetEdge where
  params := h.params
  control := rfl
  bitRecord := ⟨rfl, rfl, rfl⟩
  byteRecord := ⟨rfl, rfl, rfl⟩
  inputs := congrArg List.tail h.inputs
  held := h.held
  edge := congrArg (· + 1) h.edge
  tmr := .of_le (Nat.zero_le _) (Nat.zero_le _)
  iter := .of_le (Nat.zero_le _) (Nat.zero_le _)
  gapLat := .of_le (Nat.zero_le _) (Nat.zero_le _)
  diagGap := .of_le (Nat.zero_le _) (Nat.zero_le _)
  diagWidth := .of_le (Nat.zero_le _) (Nat.zero_le _)

theorem checkOp (h : s.Lockstep u) : s.checkOp.Lockstep u.checkOp := by
  have hsum : checksumOk u.params s.sr = checksumOk s.params s.sr := by simp only [checksumOk, h.sameParams]
  simp only [State.checkOp, verdictValid, verdictErr, h.sr, h.toSeen, hsum]
  exact h.endCycle _ _

theorem idleOp (h : s.Lockstep u) : s.idleOp.Lockstep u.idleOp := by
  simp only [State.idleOp, h.pins]
  split
  · exact h.acceptStart
  · exact h

/-! ### The operations that compare a counter -/

variable (hs : s.params.ok = true) (hu : u.params.ok = true)
include hs hu

/-- Both counters restart from at most one sample. -/
theorem restartCounters (h : s.Lockstep u) {n : Nat} (hn : n ≤ 1) :
    (s.restartCounters n).Lockstep (u.restartCounters n) := by
  obtain ⟨hst, hsi⟩ := Params.one_le_max hs
  obtain ⟨hut, hui⟩ := Params.one_le_max hu
  exact { h with tmr := .of_le (hn.trans hst) (hn.trans hut), iter := .of_le (hn.trans hsi) (hn.trans hui) }

theorem enterWait (h : s.Lockstep u) (next : Instr) {n : Nat} (hn : n ≤ 1) :
    (s.enterWait next n).Lockstep (u.enterWait next n) :=
  { restartCounters hs hu h hn with control := congrArg (Prod.mk (encode next) ·.2) h.control }

theorem startLowOp (h : s.Lockstep u) : s.startLowOp.Lockstep u.startLowOp := by
  obtain ⟨hlow, -⟩ := h.sameParams
  have hle := h.tmr.le_iff (k := s.params.startLowTicks - 1) (by have := Params.ok_startLow hs; omega)
    (by have := Params.ok_startLow hu; omega)
  simp only [State.startLowOp, hlow, ← hle]
  split
  · exact h.endStartLow
  · exact h.countPeriod

theorem startHighOp (h : s.Lockstep u) : s.startHighOp.Lockstep u.startHighOp := by
  obtain ⟨-, hhigh, -⟩ := h.sameParams
  have hle := h.tmr.le_iff (k := s.params.startHighTicks - 1) (by have := Params.ok_startHigh hs; omega)
    (by have := Params.ok_startHigh hu; omega)
  simp only [State.startHighOp, hhigh, ← hle]
  split
  · exact h.enterWait hs hu _ (Nat.zero_le 1)
  · exact h.countPeriod

theorem capReached (h : s.Lockstep u) : u.capReached = s.capReached := by
  obtain ⟨-, -, -, -, hcap, -⟩ := h.sameParams
  rw [Bool.eq_iff_iff, State.capReached_iff, State.capReached_iff, hcap]
  refine exists_congr fun c => and_congr_right fun hc => ?_
  exact (h.iter.le_iff (Params.ok_cap hs hc).2 (Params.ok_cap hu (hcap.trans hc)).2).symm

theorem handshakeWait (h : s.Lockstep u) (level : Bool) (next : Instr) :
    (s.handshakeWait level next).Lockstep (u.handshakeWait level next) := by
  simp only [State.handshakeWait, h.lineRead, h.capReached hs hu]
  split
  · exact h.enterWait hs hu next le_rfl
  split
  · exact h.endCycle _ _
  · exact h.countSample

theorem bitGapOp (h : s.Lockstep u) : s.bitGapOp.Lockstep u.bitGapOp := by
  simp only [State.bitGapOp, h.lineRead]
  split
  · exact (h.enterWait hs hu _ le_rfl).latchGap h.tmr
  · exact h.countSample

theorem bitHighOp (h : s.Lockstep u) : s.bitHighOp.Lockstep u.bitHighOp := by
  obtain ⟨-, -, hthr, hceil, -, -⟩ := h.sameParams
  have hlt := h.iter.lt_iff (Params.ok_ceil hs).1 (hceil ▸ (Params.ok_ceil hu).1)
  have hclass : classify u.params u.tmr = classify s.params s.tmr := by
    simp only [classify, hthr,
      h.tmr.le_iff (Params.threshold_le_tmrMax hs) (hthr ▸ Params.threshold_le_tmrMax hu)]
  simp only [State.bitHighOp, h.lineRead, hceil, ← hlt, hclass]
  split
  · split
    · exact h.countSample
    · have := (h.completeBit false true h.tmr.inc).markBitTimeout
      exact this.restartCounters (by simpa using hs) (by simpa using hu) (Nat.zero_le 1)
  · have := h.completeBit (classify s.params s.tmr) false h.tmr
    exact this.restartCounters (by simpa using hs) (by simpa using hu) le_rfl

theorem operation (h : s.Lockstep u) (i : Instr) : (s.operation i).Lockstep (u.operation i) := by
  cases i
  case idle => exact h.idleOp
  case startLow => exact h.startLowOp hs hu
  case startHigh => exact h.startHighOp hs hu
  case hsWaitRel => exact h.handshakeWait hs hu true .hsWaitAckl
  case hsWaitAckl => exact h.handshakeWait hs hu false .hsWaitAckh
  case hsWaitAckh => exact h.handshakeWait hs hu true .bitGap
  case bitGap => exact h.bitGapOp hs hu
  case bitHigh => exact h.bitHighOp hs hu
  case check => exact h.checkOp

/-- LOCKSTEP STEP: an edge keeps two blocks in lockstep; nothing is needed of them but parameters in range. -/
theorem after (h : s.Lockstep u) : s.after.Lockstep u.after := by
  simp only [State.after, h.pins, h.st]
  split
  · exact h.resetEdge
  refine nextEdge ?_
  unfold State.operationOf
  split
  · exact h.clearPulses.operation (s := s.clearPulses) (u := u.clearPulses) hs hu _
  · exact h.clearPulses.reservedOp

/-- Runs of two blocks in lockstep stay in lockstep. -/
theorem run (h : s.Lockstep u) (k : Nat) :
    ∃ t v, runEdges k s = .next t ∧ runEdges k u = .next v ∧ t.Lockstep v := by
  induction k generalizing s u with
  | zero => exact ⟨s, u, rfl, rfl, h⟩
  | succ k ih =>
    rw [runEdges_succ hs, runEdges_succ hu]
    exact ih (by simpa using hs) (by simpa using hu) (h.after hs hu)

end

/-- Two blocks that come out of reset under the same inputs are in lockstep. -/
theorem resetWith (p : Params) (tw iw : Nat) (xs : List Inputs) (h : Option Inputs) :
    (State.resetWith p xs h).Lockstep (State.resetWith { p with tmrW := tw, iterW := iw } xs h) where
  params := ⟨tw, iw, rfl⟩
  control := rfl
  bitRecord := ⟨rfl, rfl, rfl⟩
  byteRecord := ⟨rfl, rfl, rfl⟩
  inputs := rfl
  held := rfl
  edge := rfl
  tmr := .of_le (Nat.zero_le _) (Nat.zero_le _)
  iter := .of_le (Nat.zero_le _) (Nat.zero_le _)
  gapLat := .of_le (Nat.zero_le _) (Nat.zero_le _)
  diagGap := .of_le (Nat.zero_le _) (Nat.zero_le _)
  diagWidth := .of_le (Nat.zero_le _) (Nat.zero_le _)

/-- The data and line outputs are functions of the shared registers. -/
theorem dataOutputs {s u : State} (h : s.Lockstep u) : u.dataOutputs = s.dataOutputs := by
  simp only [State.dataOutputs, State.humInt, State.humFrac, State.tempInt, State.tempFrac, State.tempX10,
    State.humX10, State.gated, h.valid, h.sr]

end State.Lockstep

/-- Settles O51: `State.Lockstep` is kept by every operation, and the invariant by every edge. -/
theorem counterWidthsAreInvisible : Obligations.CounterWidthsAreInvisible := by
  constructor
  · intro s u t hs hu h hstep
    obtain ⟨hp, rfl⟩ := step_next hstep
    exact ⟨u.after, step_eq hu.paramsOk, hs.after, hu.after, h.after hp hu.paramsOk⟩
  · intro p tw iw xs held k hp hp'
    obtain ⟨t, u, ht, hu, h⟩ := (State.Lockstep.resetWith p tw iw xs held).run hp hp' k
    refine ⟨t, u, ht, hu, h.control.symm, h.dataOutputs.symm, ?_, ?_⟩
    · simp only [State.lineOe, h.st]
    · simp only [State.lineOut, h.st]

end Sys2Proof.Machine

/-! PROOFS. O50: a whole read cycle, composed of the visits to its operations. `State.Faces` says what the coming edges
sample, `State.Holds` what the registers of the cycle hold, and `State.Reaches` is a run with its postcondition. -/

namespace Sys2Proof.Machine

/-! ### Bits in order of arrival -/

theorem shiftIn_getLsbD_zero (x : Frame) (b : Bool) : (shiftIn x b).getLsbD 0 = b := by
  simp [shiftIn]

theorem shiftIn_getLsbD_succ (x : Frame) (b : Bool) {i : Nat} (h : i + 1 < 40) :
    (shiftIn x b).getLsbD (i + 1) = x.getLsbD i := by
  have : i < 39 := by omega
  simp [shiftIn, this]

/-- The last bit shifted in stands at bit 0, the one before it at bit 1, and so on (10_state.md R20). -/
theorem foldl_shiftIn_getLsbD (bits : List Bool) (x : Frame) {i : Nat} (hi : i < bits.reverse.length) (h40 : i < 40) :
    (bits.foldl shiftIn x).getLsbD i = bits.reverse[i] := by
  induction bits using List.reverseRecOn generalizing i with
  | nil => cases hi
  | append_singleton bits b ih =>
    simp only [List.foldl_append, List.foldl_cons, List.foldl_nil]
    cases i with
    | zero => exact (shiftIn_getLsbD_zero _ b).trans (by simp)
    | succ i =>
      rw [shiftIn_getLsbD_succ _ _ h40, ih (by simpa using hi) (by omega)]
      simp

/-- Forty bits shifted in make the frame whose n-th arriving bit is the n-th of them (20_memory.md R43). -/
theorem foldl_shiftIn_eq {b : Fin 40 → Bool} {f : Frame} (h : ∀ n : Fin 40, f.getLsbD (39 - n) = b n) (x : Frame) :
    (List.ofFn b).foldl shiftIn x = f := by
  apply BitVec.eq_of_getLsbD_eq
  intro i hi
  rw [foldl_shiftIn_getLsbD _ _ (by simpa using hi) hi]
  have := h ⟨39 - i, by omega⟩
  simp only [List.getElem_reverse, List.getElem_ofFn, List.length_ofFn]
  rw [← this]; congr 1; simp; omega

/-! ### Runs with a postcondition -/

/-- `k` edges lead to a state with `P`. -/
def State.Reaches (k : Nat) (P : State → Prop) (s : State) : Prop :=
  ∃ t, runEdges k s = .next t ∧ P t

theorem State.Reaches.zero {P : State → Prop} {s : State} (h : P s) : s.Reaches 0 P := ⟨s, rfl, h⟩

theorem State.Reaches.cons {k : Nat} {P : State → Prop} {s : State} (hp : s.params.ok = true)
    (h : s.after.Reaches k P) : s.Reaches (k + 1) P := by
  obtain ⟨t, ht, hP⟩ := h
  exact ⟨t, (runEdges_succ hp k).trans ht, hP⟩

theorem State.Reaches.trans {k m : Nat} {P Q : State → Prop} {s : State} (h : s.Reaches k P)
    (hPQ : ∀ t, P t → t.Reaches m Q) : s.Reaches (k + m) Q := by
  obtain ⟨t, ht, hP⟩ := h
  obtain ⟨u, hu, hQ⟩ := hPQ t hP
  exact ⟨u, (runEdges_add ht m).trans hu, hQ⟩

/-! ### What the coming edges sample -/

/-- The coming edges sample `line`, none of them resets the block, and behind them the queue of inputs is `rest`. -/
def State.Faces (line : List Bool) (rest : List Inputs) (s : State) : Prop :=
  ∃ wave, noReset wave ∧ lineOf wave = line ∧ s.inputs = wave ++ rest

/-- One edge of an operation takes the first sample. -/
theorem State.Faces.edge {s : State} {op : Instr} {level : Bool} {line : List Bool} {rest : List Inputs}
    (hf : s.Faces (level :: line) rest) (hst : s.st = encode op) :
    s.pins.lineIn = level ∧ s.after = (s.clearPulses.operation op).nextEdge ∧ s.after.Faces line rest := by
  obtain ⟨_ | ⟨x, wave⟩, hreset, hline, hins⟩ := hf
  · cases hline
  obtain ⟨rfl, htail⟩ := List.cons_eq_cons.1 hline
  have hpins : s.pins = x := State.pins_of_inputs hins
  have hrst : s.pins.rst = false := hpins ▸ hreset x List.mem_cons_self
  refine ⟨congrArg _ hpins, ?_, wave, fun y hy => hreset y (List.mem_cons_of_mem x hy), htail, ?_⟩
  · rw [State.after_run hrst, hst, State.operationOf_encode]
  · rw [State.after_inputs, hins]; rfl

/-! ### What the registers of a cycle hold -/

/-- The registers of a cycle under the operation with code `code`, with the bits `bits` recorded and none timed out. -/
structure State.Holds (p : Params) (code : StCode) (tmr iter : Nat) (bits : List Bool) (s : State) : Prop where
  params : s.params = p
  st : s.st = code
  tmr : s.tmr = tmr
  iter : s.iter = iter
  sr : s.sr = bits.foldl shiftIn 0#40
  bitcnt : s.bitcnt = BitVec.ofNat 6 bits.length
  toSeen : s.toSeen = false

/-- A wait state that has counted `n` samples, saturated in the width of each counter (10_state.md R24). -/
abbrev State.Waits (p : Params) (code : StCode) (n : Nat) (bits : List Bool) (s : State) : Prop :=
  s.Holds p code (min n p.tmrMax) (min n p.iterMax) bits

section
variable {s : State} {p : Params} {code : StCode} {tmr iter n : Nat} {bits : List Bool}

theorem State.Holds.clearPulses (h : s.Holds p code tmr iter bits) : s.clearPulses.Holds p code tmr iter bits :=
  { h with }

theorem State.Holds.nextEdge (h : s.Holds p code tmr iter bits) : s.nextEdge.Holds p code tmr iter bits :=
  { h with }

theorem State.Holds.countPeriod (h : s.Holds p code tmr iter bits) (ht : tmr < p.tmrMax) :
    s.countPeriod.Holds p code (tmr + 1) iter bits :=
  { h with tmr := by rw [State.countPeriod_tmr, h.params, h.tmr, incT_of_lt ht] }

theorem State.Waits.countSample (h : s.Waits p code n bits) : s.countSample.Waits p code (n + 1) bits :=
  { h with
    tmr := by rw [State.countSample_tmr, h.params, h.tmr, incT]; omega
    iter := by rw [State.countSample_iter, h.params, h.iter, incI]; omega }

theorem State.Holds.enterWait (h : s.Holds p code tmr iter bits) (hp : p.ok = true) (next : Instr) (hn : n ≤ 1) :
    (s.enterWait next n).Waits p (encode next) n bits := by
  obtain ⟨ht, hi⟩ := Params.one_le_max hp
  exact { h with
    st := rfl
    tmr := by rw [State.enterWait_tmr]; omega
    iter := by rw [State.enterWait_iter]; omega }

end

variable {p : Params} {op : Instr} {n k : Nat} {bits : List Bool} {line : List Bool} {rest : List Inputs}

/-- One edge of a cycle: what the operation makes of the registers and the first sample. -/
theorem State.Holds.edge_run {s : State} (hp : p.ok = true) {tmr iter : Nat} {level : Bool} {P : State → Prop}
    (h : s.Holds p (encode op) tmr iter bits) (hf : s.Faces (level :: line) rest)
    (hP : ∀ x : State, x.Holds p (encode op) tmr iter bits → x.pins.lineIn = level → P (x.operation op).nextEdge) :
    s.Reaches 1 fun t => P t ∧ t.Faces line rest := by
  obtain ⟨hlevel, hafter, hf'⟩ := hf.edge h.st
  exact .cons (h.params ▸ hp) (.zero ⟨hafter ▸ hP _ h.clearPulses hlevel, hf'⟩)

/-! ### A wait state counts -/

/-- As long as its operation counts samples at `level`, a run of such samples is counted and nothing else happens. -/
theorem State.Waits.count_run {s : State} (hp : p.ok = true) {level : Bool}
    (hcount : ∀ (x : State) (j : Nat), j < k → x.Waits p (encode op) (n + j) bits → x.pins.lineIn = level →
      x.operation op = x.countSample)
    (h : s.Waits p (encode op) n bits) (hf : s.Faces (List.replicate k level ++ line) rest) :
    s.Reaches k fun t => t.Waits p (encode op) (n + k) bits ∧ t.Faces line rest := by
  induction k generalizing s n with
  | zero => exact .zero ⟨h, by simpa using hf⟩
  | succ k ih =>
    have hfirst : s.Reaches 1 fun t => t.Waits p (encode op) (n + 1) bits ∧
        t.Faces (List.replicate k level ++ line) rest :=
      State.Holds.edge_run hp h hf fun x hx hlevel => by
        rw [hcount x 0 k.succ_pos hx hlevel]
        exact (State.Waits.countSample hx).nextEdge
    rw [Nat.add_comm k 1, ← Nat.add_assoc]
    refine hfirst.trans fun t ⟨ht, htf⟩ => ih (fun x j hj hx => hcount x (j + 1) (by omega) ?_) ht htf
    rwa [show n + (j + 1) = n + 1 + j by omega]

/-- A handshake wait counts a sample at its waiting level below the cap. -/
theorem State.Waits.handshake_counts {x : State} (hx : x.Waits p (encode op) n bits)
    (hcap : ∀ c, p.hsWaitCap = some c → n < c) {level : Bool} (next : Instr) (hlevel : x.pins.lineIn = level) :
    x.handshakeWait level next = x.countSample := by
  rcases x.handshakeWait_cases level next with ⟨h, -⟩ | ⟨-, hreached, -⟩ | ⟨-, -, h⟩
  · exact absurd hlevel h
  · obtain ⟨c, hc, hle⟩ := (State.capReached_iff x).1 hreached
    rw [hx.params] at hc
    rw [hx.iter] at hle
    have := hcap c hc
    omega
  · exact h

/-- A visit to a handshake wait: `k` further samples at its level, within the cap, and one at the other level
(40_handshake.md R80 to R82). -/
theorem State.Waits.handshake_run {s : State} (hp : p.ok = true) {level : Bool} {next : Instr}
    (hop : State.operation op = State.handshakeWait level next) (h : s.Waits p (encode op) n bits)
    (hf : s.Faces (List.replicate k level ++ (!level) :: line) rest)
    (hcap : ∀ c, p.hsWaitCap = some c → n + k ≤ c) :
    s.Reaches (k + 1) fun t => t.Waits p (encode next) 1 bits ∧ t.Faces line rest := by
  refine (h.count_run hp (fun x j hj hx hlevel => ?_) hf).trans ?_
  · rw [hop]
    exact hx.handshake_counts (fun c hc => by have := hcap c hc; omega) next hlevel
  · rintro t ⟨ht, htf⟩
    refine State.Holds.edge_run hp ht htf fun x hx hlevel => ?_
    have hleave : x.handshakeWait level next = x.enterWait next 1 := if_pos (by simp [State.lineRead, hlevel])
    rw [hop, hleave]
    exact (hx.enterWait hp next le_rfl).nextEdge

/-! ### The start signal -/

/-- The acceptance edge empties the frame (40_handshake.md R76). -/
theorem State.accept_run {s : State} (hp : s.params.ok = true) (hst : s.st = 0#4) {request : Inputs}
    {wave : List Inputs} (hins : s.inputs = request :: (wave ++ rest)) (hrst : request.rst = false)
    (hstart : request.start = true) (hwave : noReset wave) :
    s.Reaches 1 fun t => t.Holds s.params 1#4 0 0 [] ∧ t.Faces (lineOf wave) rest := by
  have hpins : s.pins = request := State.pins_of_inputs hins
  have hafter : s.after = s.clearPulses.acceptStart.nextEdge := by
    rw [State.after_run (hpins ▸ hrst), hst]
    exact congrArg State.nextEdge (if_pos (by simp [hpins, hstart]))
  refine .cons hp (.zero ⟨?_, wave, hwave, rfl, by rw [State.after_inputs, hins]; rfl⟩)
  rw [hafter]
  exact ⟨rfl, rfl, rfl, rfl, rfl, rfl, rfl⟩

/-- A part of the start signal counts `k` periods, whatever the line does, and then one edge ends it. -/
theorem State.Holds.start_run {s : State} (hp : p.ok = true) {ticks iter : Nat} (hticks : ticks ≤ p.tmrMax)
    {ended : State → State} (hop : ∀ x : State, x.params = p →
      x.operation op = if ticks - 1 ≤ x.tmr then ended x else x.countPeriod)
    (h : s.Holds p (encode op) n iter bits) (hk : n + k + 1 = ticks) {before : List Bool} (hlen : before.length = k + 1)
    (hf : s.Faces (before ++ line) rest) {P : State → Prop}
    (hend : ∀ x : State, x.Holds p (encode op) (ticks - 1) iter bits → P (ended x).nextEdge) :
    s.Reaches (k + 1) fun t => P t ∧ t.Faces line rest := by
  induction k generalizing s n before with
  | zero =>
    obtain ⟨level, rfl⟩ := List.length_eq_one_iff.1 hlen
    refine h.edge_run hp hf fun x hx _ => ?_
    rw [hop x hx.params, if_pos (by rw [hx.tmr]; omega)]
    exact hend x (by rwa [← hk])
  | succ k ih =>
    obtain ⟨level, before, rfl⟩ := List.exists_cons_of_length_eq_add_one hlen
    have hfirst : s.Reaches 1 fun t => t.Holds p (encode op) (n + 1) iter bits ∧ t.Faces (before ++ line) rest :=
      h.edge_run hp hf fun x hx _ => by
        rw [hop x hx.params, if_neg (by rw [hx.tmr]; omega)]
        exact (hx.countPeriod (by omega)).nextEdge
    rw [Nat.add_comm (k + 1) 1]
    exact hfirst.trans fun t ⟨ht, htf⟩ => ih ht (by omega) (by simpa using hlen) htf

/-- The whole start signal, from the acceptance to the first handshake wait (40_handshake.md R77, R78). -/
theorem State.Holds.start_signal_run {s : State} (hp : p.ok = true) (h : s.Holds p 1#4 0 0 bits) {before : List Bool}
    (hlen : before.length = p.startLowTicks + p.startHighTicks) (hf : s.Faces (before ++ line) rest) :
    s.Reaches (p.startLowTicks + p.startHighTicks) fun t => t.Waits p 3#4 0 bits ∧ t.Faces line rest := by
  obtain ⟨hlow, hlow'⟩ := Params.ok_startLow hp
  obtain ⟨hhigh, hhigh'⟩ := Params.ok_startHigh hp
  obtain ⟨low, hl⟩ := Nat.exists_eq_add_of_le' hlow
  obtain ⟨high, hh⟩ := Nat.exists_eq_add_of_le' hhigh
  rw [← List.take_append_drop p.startLowTicks before, List.append_assoc] at hf
  rw [hl, hh]
  refine (State.Holds.start_run (op := .startLow) (ended := State.endStartLow) (n := 0) (k := low)
    (P := fun t => t.Holds p 2#4 0 0 bits) hp hlow' (by rintro x rfl; rfl) h (by omega) (by simp; omega) hf
    (fun x hx => ⟨hx.params, rfl, rfl, hx.iter, hx.sr, hx.bitcnt, hx.toSeen⟩)).trans ?_
  rintro t ⟨ht, htf⟩
  exact State.Holds.start_run (op := .startHigh) (ended := fun x => x.enterWait .hsWaitRel 0) (n := 0) (k := high)
    (P := fun t => t.Waits p 3#4 0 bits) hp hhigh' (by rintro x rfl; rfl) ht (by omega) (by simp; omega) htf
    (fun x hx => (hx.enterWait hp .hsWaitRel (Nat.zero_le 1)).nextEdge)

/-! ### One bit -/

/-- The samples of a bit as `BIT_GAP` sees them: the first low sample of the gap ended the visit before (40_handshake.md
R79), and the low sample behind the pulse ends the bit (41_bit_decoder.md R100). -/
def bitSamples (gap width : Nat) : List Bool :=
  List.replicate (gap - 1) false ++ (List.replicate width true ++ [false])

/-- The operation of the data phase after `n` recorded bits, `CHECK` when none is missing (41_bit_decoder.md R102). -/
def dataOp (n : Nat) : Instr := if n = 40 then .check else .bitGap

/-- The completion of a bit that did not time out. -/
theorem State.Waits.record {s : State} (hp : p.ok = true) (h : s.Waits p 7#4 n bits) (hlen : bits.length < 40) :
    ((s.completeBit (classify s.params s.tmr) false s.tmr).restartCounters 1).Waits p
      (encode (dataOp (bits.length + 1))) 1 (bits ++ [decide (p.thresholdTicks ≤ n)]) := by
  have hthr := Params.threshold_le_tmrMax hp
  obtain ⟨ht, hi⟩ := Params.one_le_max hp
  have hbit : classify s.params s.tmr = decide (p.thresholdTicks ≤ n) := by
    rw [h.params, h.tmr, classify, decide_eq_decide]; omega
  rw [hbit]
  constructor
  case params => simpa using h.params
  case tmr => rw [State.restartCounters_tmr]; omega
  case iter => rw [State.restartCounters_iter]; omega
  case sr => simp [h.sr]
  case toSeen => simpa using h.toSeen
  case bitcnt =>
    rw [State.restartCounters_bitcnt, State.completeBit_bitcnt, h.bitcnt]
    apply BitVec.eq_of_toNat_eq; simp
  case st =>
    have h39 : s.bitcnt = 39#6 ↔ bits.length + 1 = 40 := by
      rw [h.bitcnt, ← BitVec.toNat_inj]; simp; omega
    rw [State.restartCounters_st, State.completeBit_st, dataOp]
    simp only [h39]
    split <;> rfl

/-- One bit, from `BIT_GAP` to the next: the gap ends, the pulse is counted, the low sample behind it records the
comparator's bit (30_encoding.md R59). -/
theorem State.Waits.bit_run {s : State} (hp : p.ok = true) (h : s.Waits p 6#4 1 bits) {gap width : Nat}
    (hw : 1 ≤ width ∧ width ≤ p.bitCeil) (hlen : bits.length < 40) (hf : s.Faces (bitSamples gap width ++ line) rest) :
    s.Reaches (bitSamples gap width).length fun t =>
      t.Waits p (encode (dataOp (bits.length + 1))) 1 (bits ++ [decide (p.thresholdTicks ≤ width)]) ∧
      t.Faces line rest := by
  obtain ⟨w, rfl⟩ := Nat.exists_eq_add_of_le' hw.1
  have hsamples : bitSamples gap (w + 1) ++ line =
      List.replicate (gap - 1) false ++ (true :: (List.replicate w true ++ false :: line)) := by
    simp [bitSamples, List.replicate_succ]
  have hlength : (bitSamples gap (w + 1)).length = gap - 1 + (1 + (w + 1)) := by simp [bitSamples]; omega
  rw [hsamples] at hf
  rw [hlength]
  refine (State.Waits.count_run (op := .bitGap) hp (fun x j _ _ hlevel => ?_) h hf).trans ?_
  · exact if_neg (by simp [State.lineRead, hlevel])
  rintro t ⟨ht, htf⟩
  refine (State.Holds.edge_run (P := fun t => t.Waits p 7#4 1 bits) hp ht htf fun x hx hlevel => ?_).trans ?_
  · have hleave : x.bitGapOp = (x.enterWait .bitHigh 1).latchGap x.tmr := if_pos hlevel
    rw [State.operation, hleave]
    exact { hx.enterWait hp .bitHigh le_rfl with }
  rintro t ⟨ht, htf⟩
  refine (State.Waits.count_run (op := .bitHigh) hp (fun x j hj hx hlevel => ?_) ht htf).trans ?_
  · have hlt : x.iter < x.params.bitCeil := by
      rw [hx.params, hx.iter]; omega
    exact (if_pos hlevel).trans (if_pos hlt)
  rintro t ⟨ht, htf⟩
  refine State.Holds.edge_run hp ht htf fun x hx hlevel => ?_
  have hend : x.operation .bitHigh = (x.completeBit (classify x.params x.tmr) false x.tmr).restartCounters 1 :=
    if_neg (by simp [State.lineRead, hlevel])
  rw [hend, Nat.add_comm w 1]
  exact (State.Waits.record hp hx hlen).nextEdge

/-- The missing bits, one after another, up to `CHECK`. -/
theorem State.Waits.data_run {s : State} (hp : p.ok = true) {ι : Type} (gap width : ι → Nat)
    (hw : ∀ i, 1 ≤ width i ∧ width i ≤ p.bitCeil) (ns : List ι) (hlen : bits.length + ns.length = 40)
    (h : s.Waits p (encode (dataOp bits.length)) 1 bits)
    (hf : s.Faces (ns.flatMap fun i => bitSamples (gap i) (width i)) rest) :
    s.Reaches (ns.flatMap fun i => bitSamples (gap i) (width i)).length fun t =>
      t.Waits p 8#4 1 (bits ++ ns.map fun i => decide (p.thresholdTicks ≤ width i)) ∧ t.Faces [] rest := by
  induction ns generalizing s bits with
  | nil =>
    have h40 : bits.length = 40 := by simpa using hlen
    rw [h40] at h
    exact .zero ⟨by simpa [dataOp] using h, hf⟩
  | cons i ns ih =>
    have hlt : bits.length < 40 := by simp at hlen; omega
    rw [dataOp, if_neg (by omega)] at h
    rw [List.flatMap_cons] at hf ⊢
    rw [List.length_append]
    refine (h.bit_run hp (hw i) hlt hf).trans ?_
    rintro t ⟨ht, htf⟩
    rw [List.map_cons, List.append_cons]
    exact ih (by simp at hlen ⊢; omega) (by simpa using ht) htf

/-! ### The whole cycle -/

/-- The pairs of a frame and the final low sample (30_encoding.md R70), cut where the visits end. -/
theorem waveSamples_pairs {ι : Type} (gap width : ι → Nat) (hg : ∀ i, 1 ≤ gap i) (ns : List ι) :
    waveSamples ((ns.map fun i => [Token.low (gap i), Token.high (width i)]).flatten ++ [.low 1]) =
      false :: ns.flatMap fun i => bitSamples (gap i) (width i) := by
  induction ns with
  | nil => rfl
  | cons i ns ih =>
    obtain ⟨g, hg⟩ := Nat.exists_eq_add_of_le' (hg i)
    simp only [waveSamples] at ih
    simp [waveSamples, Token.samples, bitSamples, hg, List.replicate_succ, ih]

/-- The whole answer of the line (30_encoding.md R70), cut where the visits end: each handshake wait takes its samples
but for the first, which ended the visit before, and one sample at the other level. -/
theorem waveSamples_cycle (a b c : Nat) (gap width : Fin 40 → Nat) (hg : ∀ n, 1 ≤ gap n) :
    waveSamples ([.high a, .low (b + 1), .high (c + 1)]
        ++ (List.ofFn fun n => [Token.low (gap n), Token.high (width n)]).flatten ++ [.low 1]) =
      List.replicate a true ++ (!true) :: (List.replicate b false ++ (!false) :: (List.replicate c true ++
        (!true) :: (List.finRange 40).flatMap fun n => bitSamples (gap n) (width n))) := by
  have hpairs := waveSamples_pairs gap width hg (List.finRange 40)
  rw [List.ofFn_eq_map]
  simp only [waveSamples] at hpairs ⊢
  simp [Token.samples, List.replicate_succ, hpairs]

/-- `CHECK` ends the cycle with the verdict of the checksum (42_frame_checksum.md R118). -/
theorem State.Waits.check_run {s : State} (hp : p.ok = true) (h : s.Waits p 8#4 n bits) {last : Inputs}
    (hf : s.Faces [] (last :: rest)) (hlast : last.rst = false) :
    s.Reaches 1 fun t => t.Holds p 0#4 (min n p.tmrMax) (min n p.iterMax) bits ∧ t.done = true ∧
      t.valid = checksumOk p t.sr ∧ t.err = (if checksumOk p t.sr then 0#2 else 3#2) ∧ t.inputs = rest := by
  obtain ⟨_ | ⟨x, wave⟩, -, hline, hins⟩ := hf
  case cons => cases hline
  have hafter : s.after = s.clearPulses.checkOp.nextEdge := by
    rw [State.after_run (State.pins_of_inputs hins ▸ hlast), h.st]; rfl
  have hto : s.toSeen = false := h.toSeen
  refine .cons (h.params ▸ hp) (.zero ?_)
  rw [hafter]
  refine ⟨{ h with st := rfl }, rfl, ?_, ?_, by simp [hins]⟩
  · change verdictValid s.params s.sr s.toSeen = checksumOk p s.sr
    rw [hto, h.params, verdictValid, Bool.not_false, Bool.and_true]
  · change verdictErr s.params s.sr s.toSeen = _
    rw [hto, h.params]
    rfl

/-- Settles O50, visit by visit. -/
theorem cycleDecodesTheFrame : Obligations.CycleDecodesTheFrame := by
  intro s request signal wave last rest a b c gap width f hp hst hins hrst hstart hsignal hwave hlast hlen hline hb hc hg
    hw hcap hframe
  obtain ⟨b, rfl⟩ := Nat.exists_eq_add_of_le' hb
  obtain ⟨c, rfl⟩ := Nat.exists_eq_add_of_le' hc
  rw [waveSamples_cycle a b c gap width hg] at hline
  have hwave' : wave.length = a + 1 + (b + 1) + (c + 1) +
      ((List.finRange 40).flatMap fun n => bitSamples (gap n) (width n)).length := by
    rw [← List.length_map, ← lineOf, hline]; simp; omega
  have hsr : ((List.finRange 40).map fun n => decide (s.params.thresholdTicks ≤ width n)).foldl shiftIn 0#40 = f := by
    rw [← List.ofFn_eq_map]; exact foldl_shiftIn_eq hframe _
  have haccept := State.accept_run hp hst (wave := signal ++ wave) hins hrst hstart fun x hx =>
    (List.mem_append.1 hx).elim (hsignal x) (hwave x)
  rw [show lineOf (signal ++ wave) = lineOf signal ++ lineOf wave from List.map_append, hline] at haccept
  have hrel := haccept.trans fun t ⟨ht, hf⟩ => ht.start_signal_run hp ((List.length_map _).trans hlen) hf
  have hackl := hrel.trans fun t ⟨ht, hf⟩ => State.Waits.handshake_run (op := .hsWaitRel) hp rfl ht hf
    fun cap hc => by have := hcap cap hc; omega
  have hackh := hackl.trans fun t ⟨ht, hf⟩ => State.Waits.handshake_run (op := .hsWaitAckl) hp rfl ht hf
    fun cap hc => by have := hcap cap hc; omega
  have hgap := hackh.trans fun t ⟨ht, hf⟩ => State.Waits.handshake_run (op := .hsWaitAckh) hp rfl ht hf
    fun cap hc => by have := hcap cap hc; omega
  have hcheck := hgap.trans fun t ⟨ht, hf⟩ =>
    State.Waits.data_run (bits := []) hp gap width hw (List.finRange 40) rfl ht hf
  obtain ⟨t, hrun, ht, hdone, hvalid, herr, hrest⟩ := hcheck.trans fun t ⟨ht, hf⟩ => ht.check_run hp hf hlast
  have htsr : t.sr = f := by rw [ht.sr, List.nil_append, hsr]
  rw [htsr] at hvalid herr
  refine ⟨t, ?_, ht.st, hdone, htsr, ?_, ht.toSeen, hvalid, herr, hrest⟩
  · rw [← hrun]; congr 1; omega
  · rw [ht.bitcnt]; simp

end Sys2Proof.Machine

/-! PROOFS. O33: the invariant along a step. -/

namespace Sys2Proof.Machine

/-- Settles O33: a step that answers is one of the cases of an edge, and every case keeps the invariant. -/
theorem stepKeepsTheInvariant : Obligations.StepKeepsTheInvariant :=
  fun _ _ hs hstep => hs.edge (edge_of_step hstep).2

end Sys2Proof.Machine

/-! PROOFS. O43: no operation reads the diagnostics group (10_state.md R30), so an edge of a block and an edge of the same
block with that group at 0 leave the same in every other register; and an accepted request overwrites all of those. -/

namespace Sys2Proof.Machine

namespace State

theorem eraseDiagnostics_completeBit (b t : Bool) (w : Nat) (s : State) :
    (s.eraseDiagnostics.completeBit b t w).eraseDiagnostics = (s.completeBit b t w).eraseDiagnostics := by
  ext <;> simp [eraseDiagnostics]

theorem eraseDiagnostics_handshakeWait (level : Bool) (next : Instr) (s : State) :
    (s.eraseDiagnostics.handshakeWait level next).eraseDiagnostics = (s.handshakeWait level next).eraseDiagnostics := by
  simp only [handshakeWait, apply_ite eraseDiagnostics]
  rfl

/-- The pulse's end and its timeout record a bit and then write registers outside the group. -/
theorem eraseDiagnostics_bitHighOp (s : State) :
    s.eraseDiagnostics.bitHighOp.eraseDiagnostics = s.bitHighOp.eraseDiagnostics := by
  have htimeout := congrArg (fun r => r.markBitTimeout.restartCounters 0)
    (eraseDiagnostics_completeBit false true (incT s.params s.tmr) s)
  have hend := congrArg (restartCounters 1) (eraseDiagnostics_completeBit (classify s.params s.tmr) false s.tmr s)
  simp only [bitHighOp, apply_ite eraseDiagnostics]
  exact ite_congr rfl (fun _ => ite_congr rfl (fun _ => rfl) fun _ => htimeout) fun _ => hend

theorem eraseDiagnostics_operation (i : Instr) (s : State) :
    (s.eraseDiagnostics.operation i).eraseDiagnostics = (s.operation i).eraseDiagnostics := by
  cases i
  case idle => simp only [operation, idleOp, apply_ite eraseDiagnostics]; rfl
  case startLow => simp only [operation, startLowOp, apply_ite eraseDiagnostics]; rfl
  case startHigh => simp only [operation, startHighOp, apply_ite eraseDiagnostics]; rfl
  case bitGap => simp only [operation, bitGapOp, apply_ite eraseDiagnostics]; rfl
  case bitHigh => exact s.eraseDiagnostics_bitHighOp
  case check => rfl
  all_goals exact s.eraseDiagnostics_handshakeWait _ _

theorem eraseDiagnostics_operationOf (c : StCode) (s : State) :
    (s.eraseDiagnostics.operationOf c).eraseDiagnostics = (s.operationOf c).eraseDiagnostics := by
  unfold operationOf
  split
  · exact s.eraseDiagnostics_operation _
  · rfl

/-- An edge takes nothing from the diagnostics group to the other registers. -/
theorem eraseDiagnostics_after (s : State) : s.eraseDiagnostics.after.eraseDiagnostics = s.after.eraseDiagnostics := by
  simp only [after, apply_ite eraseDiagnostics]
  exact ite_congr rfl (fun _ => rfl) fun _ =>
    congrArg nextEdge (eraseDiagnostics_operationOf s.st s.clearPulses)

/-- Runs of two blocks that agree on every register but the diagnostics group go on agreeing. -/
theorem runEdges_eraseDiagnostics {s u : State} (hp : s.params.ok = true)
    (h : s.eraseDiagnostics = u.eraseDiagnostics) (k : Nat) :
    ∃ t v, runEdges k s = .next t ∧ runEdges k u = .next v ∧ t.eraseDiagnostics = v.eraseDiagnostics := by
  induction k generalizing s u with
  | zero => exact ⟨s, u, rfl, rfl, h⟩
  | succ k ih =>
    have hparams : u.params = s.params := (congrArg params h).symm
    rw [runEdges_succ hp, runEdges_succ (hparams ▸ hp)]
    refine ih (by simpa using hp) ?_
    rw [← s.eraseDiagnostics_after, h, u.eraseDiagnostics_after]

/-- An edge performs the operation whose code `st` holds (30_encoding.md R55). -/
theorem after_operation {s : State} (hrst : s.pins.rst = false) {op : Instr} (hst : s.st = encode op) :
    s.after = (s.clearPulses.operation op).nextEdge := by
  rw [after_run hrst, hst, operationOf_encode]

/-- An edge that accepts a request, as one case of `State.after`. -/
theorem after_accept {s : State} (hst : s.st = 0#4) (hrst : s.pins.rst = false) (hstart : s.pins.start = true) :
    s.after = s.clearPulses.acceptStart.nextEdge := by
  rw [after_operation (op := .idle) hrst hst]
  exact congrArg nextEdge (if_pos hstart)

end State

/-- Settles O43: the accepted request leaves two blocks that differ in the diagnostics group alone, and no later edge reads
it. -/
theorem acceptedStartForgetsEarlierCycles : Obligations.AcceptedStartForgetsEarlierCycles := by
  intro s u k hp hparams hinputs hheld hedge hs hu hrst hstart
  have hpins : u.pins = s.pins := by simp only [State.pins, hinputs, hheld, hedge]
  have hfirst : s.after.eraseDiagnostics = u.after.eraseDiagnostics := by
    rw [State.after_accept hs hrst hstart, State.after_accept hu (hpins ▸ hrst) (hpins ▸ hstart)]
    ext <;> simp [State.eraseDiagnostics, hparams, hinputs, hheld, hedge]
  rw [runEdges_succ hp, runEdges_succ (hparams ▸ hp)]
  exact State.runEdges_eraseDiagnostics (by simpa using hp) hfirst k

end Sys2Proof.Machine

/-! PROOFS. O36, O37, O39: what an edge with `rst` = 0 does to `st`, to the pulse registers and to every other register, each
read off the cases of an edge. -/

namespace Sys2Proof.Machine

/-! ### The successors of a code -/

/-- A completed bit is counted and goes on to the gap of the next, or as the fortieth to `CHECK` (41_bit_decoder.md R102). -/
theorem State.completeBit_successor (b t : Bool) (w : Nat) (s : State) :
    ((s.completeBit b t w).st = 6#4 ∧ (s.completeBit b t w).bitcnt = s.bitcnt + 1#6 ∧ s.bitcnt ≠ 39#6) ∨
    ((s.completeBit b t w).st = 8#4 ∧ (s.completeBit b t w).bitcnt = 40#6) := by
  by_cases h : s.bitcnt = 39#6 <;> simp [h]

/-- Settles O36, case by case of an edge. -/
theorem sequencerMovesOnlyAsSpecified : Obligations.SequencerMovesOnlyAsSpecified := by
  intro s t hrst hstep
  cases (edge_of_step hstep).2
  case reset h => cases hrst.symm.trans h
  case idleStay hst hstart => exact .inl ⟨hst, .inl ⟨hst, hstart⟩⟩
  case idleAccept hst hstart => exact .inl ⟨hst, .inr ⟨rfl, hstart⟩⟩
  case startLowCount hst _ => exact .inr (.inl ⟨hst, .inl hst⟩)
  case startLowEnd hst _ => exact .inr (.inl ⟨hst, .inr rfl⟩)
  case startHighCount hst _ => exact .inr (.inr (.inl ⟨hst, .inl hst⟩))
  case startHighEnd hst _ => exact .inr (.inr (.inl ⟨hst, .inr rfl⟩))
  case waitLeave ph next hph hnext _ hst hline =>
    exact .inr (.inr (.inr (.inl ⟨ph, hph, hst, .inr (.inl ⟨hnext.symm, hline⟩)⟩)))
  case waitAbort ph hph _ hst _ hcap =>
    exact .inr (.inr (.inr (.inl ⟨ph, hph, hst, .inr (.inr ⟨rfl, rfl, s.capReached_iff.1 hcap⟩)⟩)))
  case waitCount ph hph _ hst hline _ =>
    exact .inr (.inr (.inr (.inl ⟨ph, hph, hst, .inl ⟨hst, hline⟩⟩)))
  case gapCount hst hline => exact .inr (.inr (.inr (.inr (.inl ⟨hst, .inl ⟨hst, hline⟩⟩))))
  case gapEnd hst hline => exact .inr (.inr (.inr (.inr (.inl ⟨hst, .inr ⟨rfl, hline⟩⟩))))
  case pulseCount hst _ _ => exact .inr (.inr (.inr (.inr (.inr (.inl ⟨hst, .inl ⟨hst, rfl⟩⟩)))))
  case pulseTimeout hst _ _ =>
    exact .inr (.inr (.inr (.inr (.inr (.inl ⟨hst, .inr (s.clearPulses.completeBit_successor _ _ _)⟩)))))
  case pulseEnd hst _ =>
    exact .inr (.inr (.inr (.inr (.inr (.inl ⟨hst, .inr (s.clearPulses.completeBit_successor _ _ _)⟩)))))
  case verdict hst => exact .inr (.inr (.inr (.inr (.inr (.inr ⟨.inl hst, rfl⟩)))))
  case reserved hst => exact .inr (.inr (.inr (.inr (.inr (.inr ⟨.inr hst, rfl⟩)))))

/-! ### The pulse registers (10_state.md R29) -/

/-- The handshake wait the block is in has reached its cap, and the line is still at the level it waits at. -/
def State.AbortsHandshake (s : State) : Prop :=
  ∃ ph ∈ handshakePhases, s.st = ph.code ∧ s.pins.lineIn = ph.level ∧ ∃ c, s.params.hsWaitCap = some c ∧ c ≤ s.iter

/-- The coming edge completes a bit: the pulse has ended or has reached the ceiling. -/
def State.CompletesBit (s : State) : Prop :=
  s.st = 7#4 ∧ (s.pins.lineIn = false ∨ s.params.bitCeil ≤ s.iter)

/-- The operation of a handshake wait is `State.handshakeWait` at its level. -/
theorem HandshakePhase.operation_eq {ph : HandshakePhase} (h : ph ∈ handshakePhases) :
    ph.code = encode ph.op ∧ ∃ next, State.operation ph.op = State.handshakeWait ph.level next := by
  simp only [handshakePhases, List.mem_cons, List.not_mem_nil, or_false] at h
  rcases h with rfl | rfl | rfl <;> exact ⟨rfl, _, rfl⟩

/-- A handshake wait at its cap raises `HandshakeTimeout` (40_handshake.md R83). -/
theorem State.AbortsHandshake.after {s : State} (h : s.AbortsHandshake) (hrst : s.pins.rst = false) :
    s.after = s.clearPulses.raiseHandshakeTimeout.nextEdge := by
  obtain ⟨ph, hph, hst, hline, hcap⟩ := h
  obtain ⟨hcode, next, hop⟩ := ph.operation_eq hph
  have hwait : s.clearPulses.handshakeWait ph.level next = s.clearPulses.raiseHandshakeTimeout := by
    exact (if_neg (not_not.2 hline)).trans (if_pos (s.clearPulses.capReached_iff.2 hcap))
  rw [State.after_operation hrst (hst.trans hcode), hop, hwait]

/-- An edge that raises `done` ends a cycle: it is `CHECK`'s or a handshake abort, and the block is in `IDLE` after it. -/
theorem EdgeCase.of_done {s t : State} (h : EdgeCase s t) (hdone : t.done = true) :
    (s.st = 8#4 ∨ s.AbortsHandshake) ∧ t.st = 0#4 := by
  cases h
  case verdict hst => exact ⟨.inl hst, rfl⟩
  case waitAbort ph hph _ hst hline hcap => exact ⟨.inr ⟨ph, hph, hst, hline, s.capReached_iff.1 hcap⟩, rfl⟩
  case pulseTimeout => simp at hdone
  case pulseEnd => simp at hdone
  all_goals cases hdone

/-- `done` rises at the two ends of a cycle and nowhere else. -/
theorem State.after_done_iff {s : State} (hrst : s.pins.rst = false) :
    s.after.done = true ↔ s.st = 8#4 ∨ s.AbortsHandshake := by
  refine ⟨fun hdone => (s.after_cases.of_done hdone).1, ?_⟩
  rintro (hst | habort)
  · rw [State.after_operation (op := .check) hrst hst]; rfl
  · rw [habort.after hrst]; rfl

/-- In `IDLE` no cycle ends. -/
theorem State.after_done_of_idle {s : State} (hst : s.st = 0#4) : s.after.done = false := by
  by_contra hdone
  rcases (s.after_cases.of_done (Bool.eq_true_of_not_eq_false hdone)).1 with h8 | ⟨ph, hph, hcode, -⟩
  · cases hst.symm.trans h8
  · obtain ⟨h3, -, -⟩ := ph.code_bounds hph
    rw [← hcode, hst] at h3
    contradiction

/-- The eighth bit of a byte has index 7 (10_state.md R19). -/
theorem bitIndex_eq_seven (n : BitCount) : bitIndex n = 7#3 ↔ n.toNat % 8 = 7 := by
  rw [← BitVec.toNat_inj, bitIndex_toNat]
  rfl

/-- An edge that completes a bit raises the strobes under `diag_en`, that of the byte with the eighth bit
(41_bit_decoder.md R106, R107). -/
theorem State.CompletesBit.strobes {s : State} (h : s.CompletesBit) (hrst : s.pins.rst = false) :
    s.after.diagBitStb = s.pins.diagEn ∧
    s.after.diagByteStb = (decide (s.bitcnt.toNat % 8 = 7) && s.pins.diagEn) := by
  obtain ⟨hst, hend⟩ := h
  rw [State.after_operation (op := .bitHigh) hrst hst]
  rcases s.clearPulses.bitHighOp_cases with ⟨hline, hiter, -⟩ | ⟨-, -, e⟩ | ⟨-, e⟩
  · rcases hend with h | h
    · cases hline.symm.trans h
    · exact absurd hiter (Nat.not_lt.2 h)
  all_goals by_cases h7 : s.bitcnt.toNat % 8 = 7 <;> simp [State.operation, e, bitIndex_eq_seven, h7]

/-- An edge that completes no bit raises neither strobe. -/
theorem EdgeCase.no_strobe {s t : State} (h : EdgeCase s t) (hbit : ¬ s.CompletesBit) :
    t.diagBitStb = false ∧ t.diagByteStb = false := by
  cases h
  case pulseTimeout hst _ hiter => exact absurd ⟨hst, .inr hiter⟩ hbit
  case pulseEnd hst hline => exact absurd ⟨hst, .inl hline⟩ hbit
  all_goals exact ⟨rfl, rfl⟩

/-- Settles O37: `done` by the two ends of a cycle, the strobes by whether the edge completes a bit. -/
theorem pulsesLastOnePeriod : Obligations.PulsesLastOnePeriod := by
  intro s t hrst hstep
  obtain ⟨hp, rfl⟩ := step_next hstep
  refine ⟨State.after_done_iff hrst, fun hdone => ?_, ?_⟩
  · obtain ⟨-, hst⟩ := s.after_cases.of_done hdone
    refine ⟨hst, by simp [State.busy, busyOf, hst], fun _ => ?_⟩
    exact ⟨_, step_eq (by simpa using hp), State.after_done_of_idle hst⟩
  by_cases hbit : s.CompletesBit
  · obtain ⟨hbitStb, hbyteStb⟩ := hbit.strobes hrst
    obtain ⟨hst, hend⟩ := hbit
    rw [hbitStb, hbyteStb]
    simp [hst, hend, and_comm]
  · obtain ⟨hbitStb, hbyteStb⟩ := s.after_cases.no_strobe hbit
    rw [hbitStb, hbyteStb]
    exact ⟨⟨by rintro ⟨⟩, fun ⟨hst, _, hend⟩ => absurd ⟨hst, hend⟩ hbit⟩, by simp⟩

/-! ### The other registers (10_state.md R17, column "written by") -/

section
variable {s t : State}

/-- The coming edge, if it does not reset the block, accepts a request. -/
def State.Accepts (s : State) : Prop := s.st = 0#4 ∧ s.pins.start = true

/-- The frame is filled in `BIT_HIGH` alone (R19, R20, R25). -/
theorem EdgeCase.frame_kept (h : EdgeCase s t) (hrst : s.pins.rst = false) (hacc : ¬ s.Accepts) (h7 : s.st ≠ 7#4) :
    t.sr = s.sr ∧ t.bitcnt = s.bitcnt ∧ t.toSeen = s.toSeen := by
  cases h
  case reset h => cases hrst.symm.trans h
  case idleAccept hst hstart => exact absurd ⟨hst, hstart⟩ hacc
  case pulseTimeout hst _ _ => exact absurd hst h7
  case pulseEnd hst _ => exact absurd hst h7
  all_goals exact ⟨rfl, rfl, rfl⟩

/-- The sticky mark is set by a timeout alone (R25). -/
theorem EdgeCase.toSeen_kept (h : EdgeCase s t) (hrst : s.pins.rst = false) (hacc : ¬ s.Accepts)
    (h7 : s.st = 7#4 → s.pins.lineIn = false ∨ s.iter < s.params.bitCeil) : t.toSeen = s.toSeen := by
  cases h
  case reset h => cases hrst.symm.trans h
  case idleAccept hst hstart => exact absurd ⟨hst, hstart⟩ hacc
  case pulseTimeout hst hline hiter =>
    rcases h7 hst with h | h
    · cases hline.symm.trans h
    · omega
  case pulseEnd => simp
  all_goals rfl

/-- The gap is latched in `BIT_GAP` alone (R26). -/
theorem EdgeCase.gapLat_kept (h : EdgeCase s t) (hrst : s.pins.rst = false) (hacc : ¬ s.Accepts) (h6 : s.st ≠ 6#4) :
    t.gapLat = s.gapLat := by
  cases h
  case reset h => cases hrst.symm.trans h
  case idleAccept hst hstart => exact absurd ⟨hst, hstart⟩ hacc
  case gapEnd hst _ => exact absurd hst h6
  case pulseTimeout => simp
  case pulseEnd => simp
  all_goals rfl

/-- The result is written by the handshake waits and by `CHECK` alone (R27, R28). -/
theorem EdgeCase.result_kept (h : EdgeCase s t) (hrst : s.pins.rst = false) (hacc : ¬ s.Accepts) (h3 : s.st ≠ 3#4)
    (h4 : s.st ≠ 4#4) (h5 : s.st ≠ 5#4) (h8 : s.st ≠ 8#4) : t.valid = s.valid ∧ t.err = s.err := by
  cases h
  case reset h => cases hrst.symm.trans h
  case idleAccept hst hstart => exact absurd ⟨hst, hstart⟩ hacc
  case waitAbort ph hph _ hst _ _ =>
    rcases ph.code_cases hph with ⟨h, -⟩ | ⟨h, -⟩ | ⟨h, -⟩
    exacts [absurd (hst.trans h) h3, absurd (hst.trans h) h4, absurd (hst.trans h) h5]
  case verdict hst => exact absurd hst h8
  case pulseTimeout => simp
  case pulseEnd => simp
  all_goals exact ⟨rfl, rfl⟩

/-- The diagnostics data are written in `BIT_HIGH` alone (R30). -/
theorem EdgeCase.diagnostics_kept (h : EdgeCase s t) (hrst : s.pins.rst = false) (h7 : s.st ≠ 7#4) :
    t.diagGap = s.diagGap ∧ t.diagWidth = s.diagWidth ∧ t.diagBit = s.diagBit ∧ t.diagBitTo = s.diagBitTo ∧
    t.diagByte = s.diagByte ∧ t.diagByteIdx = s.diagByteIdx := by
  cases h
  case reset h => cases hrst.symm.trans h
  case pulseTimeout hst _ _ => exact absurd hst h7
  case pulseEnd hst _ => exact absurd hst h7
  all_goals exact ⟨rfl, rfl, rfl, rfl, rfl, rfl⟩

/-- The counters are kept between cycles, by `CHECK` and by `RESERVED` (R22, R23). -/
theorem EdgeCase.counters_kept (h : EdgeCase s t) (hrst : s.pins.rst = false) (hacc : ¬ s.Accepts)
    (hcode : s.st = 0#4 ∨ 8 ≤ s.st.toNat) : t.tmr = s.tmr ∧ t.iter = s.iter := by
  cases h
  case reset h => cases hrst.symm.trans h
  case idleAccept hst hstart => exact absurd ⟨hst, hstart⟩ hacc
  case idleStay | verdict | reserved => exact ⟨rfl, rfl⟩
  case waitLeave ph _ hph _ _ hst _ | waitAbort ph hph _ hst _ _ | waitCount ph hph _ hst _ _ =>
    rw [hst] at hcode
    rcases ph.code_cases hph with ⟨h, -⟩ | ⟨h, -⟩ | ⟨h, -⟩ <;> rw [h] at hcode <;> simp at hcode
  case startLowCount hst _ | startLowEnd hst _ | startHighCount hst _ | startHighEnd hst _ | gapCount hst _ |
      gapEnd hst _ | pulseCount hst _ _ | pulseTimeout hst _ _ | pulseEnd hst _ =>
    rw [hst] at hcode
    simp at hcode

/-- `START_LOW` counts in `tmr` alone (40_handshake.md R77). -/
theorem State.after_iter_of_startLow (hrst : s.pins.rst = false) (hst : s.st = 1#4) : s.after.iter = s.iter := by
  rw [State.after_operation (op := .startLow) hrst hst]
  rcases s.clearPulses.startLowOp_cases with ⟨-, e⟩ | ⟨-, e⟩ <;> rw [State.operation, e] <;> rfl

end

/-- Settles O39, register by register. -/
theorem registersAreWrittenOnlyByTheirRules : Obligations.RegistersAreWrittenOnlyByTheirRules := by
  intro s t hrst hstep accepts
  obtain ⟨-, rfl⟩ := step_next hstep
  have h := s.after_cases
  exact ⟨h.frame_kept hrst, h.toSeen_kept hrst, h.gapLat_kept hrst, h.result_kept hrst, h.diagnostics_kept hrst,
    h.counters_kept hrst, State.after_iter_of_startLow hrst⟩

end Sys2Proof.Machine

/-! PROOFS. O29: the line driver. -/

namespace Sys2Proof.Machine

/-- The block drives the line in the two parts of the start signal (10_state.md R15). -/
theorem lineDrive_oe_iff (c : StCode) : (lineDrive c).oe = true ↔ c = 1#4 ∨ c = 2#4 := by
  by_cases h1 : c = 1#4
  · simp [lineDrive, h1, LineDrive.oe]
  by_cases h2 : c = 2#4 <;> simp [lineDrive, h1, h2, LineDrive.oe]

/-- It drives the line low in the first part alone. -/
theorem lineDrive_out_iff (c : StCode) : (lineDrive c).out = false ↔ c = 1#4 := by
  by_cases h1 : c = 1#4
  · simp [lineDrive, h1, LineDrive.out]
  by_cases h2 : c = 2#4 <;> simp [lineDrive, h1, h2, LineDrive.out]

/-- Whatever is put on the line, a low level is driven (30_encoding.md R65). -/
theorem LineDrive.oe_of_out (d : LineDrive) : ¬ (d.oe = false ∧ d.out = false) := by
  cases d <;> simp [LineDrive.oe, LineDrive.out]

/-- Settles O29. -/
theorem lineDriverFollowsTheState : Obligations.LineDriverFollowsTheState := by
  intro s
  refine ⟨lineDrive_oe_iff _, lineDrive_out_iff _, LineDrive.oe_of_out _, by simp [State.busy, busyOf], fun h3 _ => ?_⟩
  refine Bool.eq_false_iff.2 fun hoe => ?_
  rcases (lineDrive_oe_iff _).1 hoe with h | h <;> rw [h] at h3 <;> contradiction

end Sys2Proof.Machine

/-! PROOFS. O25: forty bits shifted in, as a frame and as its five byte fields. -/

namespace Sys2Proof.Machine

/-- A byte is the value of its own bits in order of arrival (42_frame_checksum.md R117). -/
theorem toByteValue_byteBits (v : Byte) : toByteValue (byteBits v) = v.toNat := by
  have hv := v.isLt
  have hbit : ∀ i, (v.getLsbD i).toNat = v.toNat / 2 ^ i % 2 := fun i => Nat.toNat_testBit v.toNat i
  simp only [toByteValue_eq, byteBits, hbit, Fin.coe_ofNat_eq_mod, Nat.reduceMod, Nat.reduceSub, Nat.reducePow]
  omega

/-- After forty bits, bit n in order of arrival stands at `sr[39-n]` (20_memory.md R45). -/
theorem getLsbD_foldl_shiftIn_ofFn (b : Fin 40 → Bool) (x : Frame) (n : Fin 40) :
    ((List.ofFn b).foldl shiftIn x).getLsbD (39 - n) = b n := by
  have hpos : (List.ofFn b).length - 1 - (39 - n) = n := by rw [List.length_ofFn]; omega
  rw [foldl_shiftIn_getLsbD _ _ (by rw [List.length_reverse, List.length_ofFn]; omega) (by omega),
    List.getElem_reverse, List.getElem_ofFn]
  simp only [hpos]

/-- The byte field of a frame that begins with arriving bit `first` is `toByteValue` of eight bits from there on
(20_memory.md R44). -/
theorem byteField_toNat {b : Fin 40 → Bool} {f : Frame} (h : ∀ n : Fin 40, f.getLsbD (39 - n) = b n) {first : Nat}
    (hfirst : first ≤ 32) :
    (f.extractLsb' (32 - first) 8).toNat = toByteValue (fun i => b ⟨first + i, by omega⟩) := by
  rw [← toByteValue_byteBits]
  congr 1
  funext i
  have hpos : 32 - first + (7 - i.val) = 39 - (first + i.val) := by omega
  have hlt : 7 - i.val < 8 := by omega
  simp [byteBits, ← h, hpos, hlt]

/-- The five byte fields, weighted by their places, are the frame (42_frame_checksum.md R115). -/
theorem frame_toNat_eq_fields (f : Frame) :
    f.toNat = (humidityInt f).toNat * 2 ^ 32 + (humidityFrac f).toNat * 2 ^ 24 + (temperatureInt f).toNat * 2 ^ 16
      + (temperatureFrac f).toNat * 2 ^ 8 + (checksumByte f).toNat := by
  have hf := f.isLt
  obtain ⟨h0, h1, h2, h3, h4⟩ := fields_toNat f
  omega

/-- Settles O25: each field begins eight arriving bits after the one before it. -/
theorem fortyShiftsAssembleTheFrame : Obligations.FortyShiftsAssembleTheFrame := by
  intro b x f
  have hbits : ∀ n : Fin 40, f.getLsbD (39 - n) = b n := getLsbD_foldl_shiftIn_ofFn b x
  exact ⟨hbits, (byteField_toNat hbits (first := 0) (by decide)).trans (by simp only [Nat.zero_add]),
    byteField_toNat hbits (first := 8) (by decide), byteField_toNat hbits (first := 16) (by decide),
    byteField_toNat hbits (first := 24) (by decide), byteField_toNat hbits (first := 32) (by decide),
    frame_toNat_eq_fields f⟩

end Sys2Proof.Machine

/-! PROOFS. O40: where `line_in` is read. -/

namespace Sys2Proof.Machine

/-- The outcome of a step is decided by the parameters and the next state of the edge. -/
theorem step_congr {s u : State} (hparams : s.params = u.params) (hafter : s.after = u.after) : step s = step u := by
  cases hp : u.params.ok
  · rw [step_refused hp, step_refused (hparams ▸ hp)]
  · rw [step_eq hp, step_eq (hparams ▸ hp), hafter]

/-- Settles O40: an edge looks at `line_in` in the wait states alone. -/
theorem lineIsReadOnlyInWaitStates : Obligations.LineIsReadOnlyInWaitStates := by
  intro s x rest v hcode
  have hnotWait : 3 ≤ s.st.toNat → s.st.toNat ≤ 7 → x.lineIn = v := by omega
  exact step_congr rfl (s.after_changePins rest rfl (fun _ => rfl) hnotWait (fun _ => rfl))

end Sys2Proof.Machine

/-! PROOFS. O45: the edges at which the result outputs change. -/

namespace Sys2Proof.Machine

/-- The data outputs depend on `valid` and, while it is 1, on the frame (42_frame_checksum.md R123). -/
theorem State.dataOutputs_congr {s t : State} (hvalid : t.valid = s.valid) (hsr : s.valid = true → t.sr = s.sr) :
    t.dataOutputs = s.dataOutputs := by
  have hgated : ∀ field, t.gated field = s.gated field := by
    intro field
    cases hv : s.valid
    · simp [State.gated, hvalid, hv]
    · simp [State.gated, hvalid, hv, hsr hv]
  simp only [State.dataOutputs, State.tempX10, State.humX10, State.humInt, State.humFrac, State.tempInt,
    State.tempFrac, hgated]

/-- Apart from reset and the acceptance of a request, `valid` and `err` are written by the edges that raise `done` alone
(10_state.md R27, R28). -/
theorem EdgeCase.result_kept_of_not_done {s t : State} (h : EdgeCase s t) (hrst : s.pins.rst = false)
    (hacc : ¬ s.Accepts) (hdone : t.done = false) : t.valid = s.valid ∧ t.err = s.err := by
  cases h
  case reset h => cases hrst.symm.trans h
  case idleAccept hst hstart => exact absurd ⟨hst, hstart⟩ hacc
  case waitAbort => cases hdone
  case verdict => cases hdone
  case pulseTimeout => simp
  case pulseEnd => simp
  all_goals exact ⟨rfl, rfl⟩

/-- Apart from reset and the acceptance of a request, a valid frame is kept: bits are shifted in only while `valid` is 0
(10_state.md R20, R27). -/
theorem EdgeCase.valid_frame_kept {s t : State} (hs : s.Inv) (h : EdgeCase s t) (hrst : s.pins.rst = false)
    (hacc : ¬ s.Accepts) (hvalid : s.valid = true) : t.sr = s.sr := by
  have h7 : s.st ≠ 7#4 := by
    intro h7
    obtain ⟨hv, -⟩ := hs.noResultWhileBusy (by rw [h7]; decide)
    cases hvalid.symm.trans hv
  exact (h.frame_kept hrst hacc h7).1

/-- Settles O45: an edge that is none of the four kinds keeps `valid`, `err` and what the data outputs show. -/
theorem resultOutputsChangeOnlyAtCycleEnds : Obligations.ResultOutputsChangeOnlyAtCycleEnds := by
  intro s t hs hstep hchange
  have h := (edge_of_step hstep).2
  by_contra hkind
  obtain ⟨hrst, hacc, hdone⟩ : s.pins.rst = false ∧ ¬ s.Accepts ∧ t.done = false := by
    simpa [State.Accepts] using hkind
  obtain ⟨hvalid, herr⟩ := h.result_kept_of_not_done hrst hacc hdone
  have hdata := State.dataOutputs_congr hvalid (h.valid_frame_kept hs hrst hacc)
  simp [hvalid, herr, hdata] at hchange

end Sys2Proof.Machine

/-! PROOFS. O1, O2, O6: the code map, and the step as the operation it selects. -/

namespace Sys2Proof.Machine

/-- A code decodes to an operation exactly when it is the code of that operation (30_encoding.md R55, R56). -/
theorem decode_eq_ok_iff {c : StCode} {i : Instr} : decode c = .ok i ↔ c = encode i := by
  refine ⟨fun h => ?_, fun h => h ▸ decode_encode i⟩
  rcases code_cases c with ⟨j, rfl⟩ | ⟨-, hreject⟩
  · rw [decode_encode] at h
    cases h; rfl
  · cases hreject.symm.trans h

/-- What the code map says of every operation (R55 to R57), from the nine. -/
theorem codeRoundTrip (i : Instr) : Laws.CodeRoundTrip.Statement i :=
  match i with
  | .idle => Laws.CodeRoundTrip.idle
  | .startLow => Laws.CodeRoundTrip.startLow
  | .startHigh => Laws.CodeRoundTrip.startHigh
  | .hsWaitRel => Laws.CodeRoundTrip.hsWaitRel
  | .hsWaitAckl => Laws.CodeRoundTrip.hsWaitAckl
  | .hsWaitAckh => Laws.CodeRoundTrip.hsWaitAckh
  | .bitGap => Laws.CodeRoundTrip.bitGap
  | .bitHigh => Laws.CodeRoundTrip.bitHigh
  | .check => Laws.CodeRoundTrip.check

theorem decodeTableWord_encode (i : Instr) : decodeTableWord 8 (encode i).toNat = some i := by
  obtain ⟨-, -, -, -, h⟩ := codeRoundTrip i
  exact h

/-- The codes from 9 on are rejected by name (30_encoding.md R57). -/
theorem decode_reserved {c : StCode} (h9 : 9 ≤ c.toNat) : decode c = .error (.reservedCode c) := by
  rcases code_cases c with ⟨i, rfl⟩ | ⟨-, hreject⟩
  · obtain ⟨-, h8, -⟩ := codeRoundTrip i
    omega
  · exact hreject

/-- Settles O2. -/
theorem decodeAndEncodeAgree : Obligations.DecodeAndEncodeAgree :=
  ⟨fun _ _ => decode_eq_ok_iff, fun i => ⟨(codeRoundTrip i).1, decodeTableWord_encode i⟩, fun _ => decode_reserved⟩

/-- Settles O1: each pattern of R56 is the code of its operation. -/
theorem codeMapIsTheSpecTable : Obligations.CodeMapIsTheSpecTable :=
  ⟨decode_encode .idle, decode_encode .startLow, decode_encode .startHigh, decode_encode .hsWaitRel,
    decode_encode .hsWaitAckl, decode_encode .hsWaitAckh, decode_encode .bitGap, decode_encode .bitHigh,
    decode_encode .check, decodeTableWord_encode .check, decode_reserved (by decide), rfl⟩

/-- Settles O6. -/
theorem stepPerformsTheSelectedOperation : Obligations.StepPerformsTheSelectedOperation := by
  intro s i hp hrst hdecode
  rw [step_eq hp, State.after_operation hrst (decode_eq_ok_iff.1 hdecode), exec_eq]

end Sys2Proof.Machine

/-! PROOFS. Runs in closed form: the state a run leaves, written out, and above all that of a wait state that counts. -/

namespace Sys2Proof.Machine

/-! ### Runs in closed form -/

/-- A run through the states `x 0`, `x 1`, …, each the next state of the one before it. -/
theorem runEdges_along {x : Nat → State} {k : Nat} (hp : ∀ j < k, (x j).params.ok = true)
    (hnext : ∀ j < k, (x j).after = x (j + 1)) : runEdges k (x 0) = .next (x k) := by
  induction k with
  | zero => rfl
  | succ k ih =>
    have hrun := ih (fun j hj => hp j (by omega)) fun j hj => hnext j (by omega)
    rw [runEdges_add hrun 1, runEdges_succ (hp k k.lt_succ_self), hnext k k.lt_succ_self, runEdges_zero]

/-- No edge reads the pulse registers (10_state.md R29). -/
theorem State.after_clearPulses (s : State) : s.clearPulses.after = s.after := rfl

/-- Where a block with its pulse registers at 0 runs, the same block with any pulse registers runs, up to those. -/
theorem State.reaches_of_clearPulses {s t : State} {k : Nat} (hp : s.params.ok = true) (ht : t.clearPulses = t)
    (h : runEdges k s.clearPulses = .next t) : s.Reaches k fun u => u.clearPulses = t := by
  cases k with
  | zero => cases h; exact .zero rfl
  | succ k =>
    rw [runEdges_succ (s := s.clearPulses) hp, s.after_clearPulses, ← runEdges_succ hp] at h
    exact ⟨t, h, ht⟩

/-- A run takes one entry of the queue an edge and leaves the held levels (30_encoding.md R70). -/
theorem runEdges_inputs {s t : State} {k : Nat} (h : runEdges k s = .next t) :
    t.inputs = s.inputs.drop k ∧ t.held = s.held := by
  induction k generalizing s with
  | zero => cases h; exact ⟨rfl, rfl⟩
  | succ k ih =>
    cases hp : s.params.ok
    · rw [runEdges_succ_refused hp] at h; cases h
    · rw [runEdges_succ hp] at h
      obtain ⟨hins, hheld⟩ := ih h
      exact ⟨by rw [hins, State.after_inputs, List.drop_tail], hheld.trans s.after_held⟩

/-- The edges that find `xs` in the queue see its entries. -/
theorem State.pins_mem {s : State} {xs rest : List Inputs} {j : Nat} (hins : s.inputs = (xs ++ rest).drop j)
    (hj : j < xs.length) : s.pins ∈ xs := by
  rw [List.drop_append_of_le_length hj.le, List.drop_eq_getElem_cons hj, List.cons_append] at hins
  rw [State.pins_of_inputs hins]
  exact List.getElem_mem hj

/-! ### A wait state counts -/

/-- What `k` samples counted in a wait state leave of `s` (40_handshake.md R79): the two counters move and saturate, and
nothing else does; the pulse registers are 0. -/
def State.afterCount (k : Nat) (s : State) : State :=
  { s.edgeFrame with
    tmr := min (s.tmr + k) s.params.tmrMax
    iter := min (s.iter + k) s.params.iterMax
    inputs := s.inputs.drop k
    edge := s.edge + k }

@[simp] theorem State.afterCount_clearPulses (k : Nat) (s : State) : (s.afterCount k).clearPulses = s.afterCount k :=
  rfl

/-- The edge that counts one more sample. -/
theorem State.afterCount_succ (k : Nat) (s : State) : (s.afterCount k).countSample.nextEdge = s.afterCount (k + 1) := by
  ext <;> simp [State.afterCount, State.edgeFrame, incT, incI] <;> omega

theorem State.afterCount_pins_mem {s : State} {xs rest : List Inputs} (hins : s.inputs = xs ++ rest) {j : Nat}
    (hj : j < xs.length) : (s.afterCount j).pins ∈ xs :=
  State.pins_mem (congrArg (List.drop j) hins) hj

/-- As long as its operation counts the samples it sees, a run of samples is counted and nothing else happens. -/
theorem State.count_run {s : State} (hp : s.params.ok = true) (htmr : s.tmr ≤ s.params.tmrMax)
    (hiter : s.iter ≤ s.params.iterMax) {op : Instr} (hst : s.st = encode op) {k : Nat}
    (hcounts : ∀ j < k, (s.afterCount j).pins.rst = false ∧
      (s.afterCount j).operation op = (s.afterCount j).countSample) :
    s.Reaches k fun t => t.clearPulses = s.afterCount k := by
  have hstart : s.clearPulses = s.afterCount 0 := by
    ext <;> simp [State.afterCount, State.edgeFrame, htmr, hiter]
  refine State.reaches_of_clearPulses hp rfl ?_
  rw [hstart]
  refine runEdges_along (x := fun j => s.afterCount j) (fun _ _ => hp) fun j hj => ?_
  obtain ⟨hrst, hcount⟩ := hcounts j hj
  rw [State.after_operation hrst hst, State.afterCount_clearPulses, hcount, State.afterCount_succ]

end Sys2Proof.Machine

/-! PROOFS. O53: a block that counts a held level counts it for ever. -/

namespace Sys2Proof.Machine

/-- The block hangs at the levels `x`: a handshake wait without a cap, or `BIT_GAP`, at its waiting level
(40_handshake.md R84, 41_bit_decoder.md R98). -/
def State.HangsAt (x : Inputs) (s : State) : Prop :=
  (∃ ph ∈ handshakePhases, s.st = ph.code ∧ x.lineIn = ph.level ∧ s.params.hsWaitCap = none) ∨
    (s.st = 6#4 ∧ x.lineIn = false)

/-- It is then inside a cycle. -/
theorem State.HangsAt.busy {x : Inputs} {s : State} (h : s.HangsAt x) : s.busy = true := by
  rcases h with ⟨ph, hph, hst, -⟩ | ⟨hst, -⟩
  · rcases ph.code_cases hph with ⟨hcode, -⟩ | ⟨hcode, -⟩ | ⟨hcode, -⟩ <;> rw [State.busy, hst, hcode] <;> rfl
  · rw [State.busy, hst]; rfl

/-- Its operation counts every such sample. -/
theorem State.HangsAt.counts {x : Inputs} {s : State} (h : s.HangsAt x) :
    ∃ op, s.st = encode op ∧ ∀ j, (s.afterCount j).pins = x →
      (s.afterCount j).operation op = (s.afterCount j).countSample := by
  rcases h with ⟨ph, hph, hst, hline, hcap⟩ | ⟨hst, hline⟩
  · obtain ⟨hcode, next, hop⟩ := ph.operation_eq hph
    refine ⟨ph.op, hst.trans hcode, fun j hpins => ?_⟩
    rw [hop]
    rcases (s.afterCount j).handshakeWait_cases ph.level next with ⟨hleave, -⟩ | ⟨-, hreached, -⟩ | ⟨-, -, hcount⟩
    · exact absurd (hpins ▸ hline) hleave
    · obtain ⟨c, hc, -⟩ := (State.capReached_iff _).1 hreached
      cases hcap.symm.trans hc
    · exact hcount
  · refine ⟨.bitGap, hst, fun j hpins => ?_⟩
    rcases (s.afterCount j).bitGapOp_cases with ⟨hhigh, -⟩ | ⟨-, hcount⟩
    · rw [hpins, hline] at hhigh; cases hhigh
    · exact hcount

/-- Settles O53: the held level is counted at every edge, and a busy state with the invariant has `done` = 0. -/
theorem heldLineHangsForEver : Obligations.HeldLineHangsForEver := by
  intro s x hs hins hheld hrst hhangs k
  have hpins : ∀ j, (s.afterCount j).pins = x := fun j =>
    State.pins_of_held (by rw [State.afterCount, hins, List.drop_nil]) hheld
  obtain ⟨op, hop, hcounts⟩ := State.HangsAt.counts hhangs
  obtain ⟨t, hrun, ht⟩ := State.count_run hs.paramsOk hs.tmrFits hs.iterFits hop (k := k) fun j _ =>
    ⟨hpins j ▸ hrst, hcounts j (hpins j)⟩
  have hst : t.st = s.st := (congrArg State.st ht :)
  have hbusy : t.busy = true := (congrArg busyOf hst).trans (State.HangsAt.busy hhangs)
  have hinv : t.Inv := runEdges_keeps (fun _ hu _ => hu.after) hs hrun
  obtain ⟨-, -, hdone⟩ := hinv.noResultWhileBusy (of_decide_eq_true hbusy)
  exact ⟨t, hrun, hst, hbusy, hdone, (congrArg State.valid ht :), (congrArg State.err ht :), (congrArg State.sr ht :),
    (congrArg State.bitcnt ht :), congrArg State.tmr ht, congrArg State.iter ht,
    (congrArg State.pins ht).trans (hpins k)⟩

end Sys2Proof.Machine

/-! PROOFS. O46: a gap and a high run, followed from `BIT_GAP` to the edge that completes the bit. -/

namespace Sys2Proof.Machine

/-- `t` is in `BIT_HIGH` with `n` high samples of the bit counted behind a gap of `gap` low ones; the frame is still
that of `s`, and `rest` is the queue of inputs. -/
structure State.MeasuresPulse (s : State) (gap n : Nat) (rest : List Inputs) (t : State) : Prop where
  params : t.params = s.params
  st : t.st = 7#4
  tmr : t.tmr = n
  iter : t.iter = n
  gapLat : t.gapLat = gap
  sr : t.sr = s.sr
  bitcnt : t.bitcnt = s.bitcnt
  toSeen : t.toSeen = s.toSeen
  inputs : t.inputs = rest

section
variable {s t : State} {gap n : Nat} {x : Inputs} {xs rest : List Inputs}

/-- A low run in `BIT_GAP` is counted, and the high sample behind it ends the gap and begins the pulse
(41_bit_decoder.md R96, R97). -/
theorem State.gap_run (hs : s.Inv) (hst : s.st = 6#4) (hins : s.inputs = xs ++ x :: rest) (hreset : noReset xs)
    (hlow : ∀ y ∈ xs, y.lineIn = false) (hrst : x.rst = false) (hhigh : x.lineIn = true) :
    s.Reaches (xs.length + 1) (s.MeasuresPulse (min (s.tmr + xs.length) s.params.tmrMax) 1 rest) := by
  refine (State.count_run hs.paramsOk hs.tmrFits hs.iterFits (op := .bitGap) hst (k := xs.length) fun j hj => ?_).trans
    fun t ht => .cons ?_ (.zero ?_)
  · have hmem := State.afterCount_pins_mem hins hj
    exact ⟨hreset _ hmem, if_neg (by simp [State.lineRead, hlow _ hmem])⟩
  · exact (congrArg (fun u => u.params.ok) ht).trans hs.paramsOk
  · have htail : (s.afterCount xs.length).inputs = x :: rest := by simp [State.afterCount, hins]
    have hpins := State.pins_of_inputs htail
    have hend : (s.afterCount xs.length).operation .bitGap =
        ((s.afterCount xs.length).enterWait .bitHigh 1).latchGap (s.afterCount xs.length).tmr :=
      if_pos ((congrArg Inputs.lineIn hpins).trans hhigh)
    have hafter := State.after_operation (s := s.afterCount xs.length) (op := .bitGap) (hpins ▸ hrst) hst
    rw [← t.after_clearPulses, ht, hafter, State.afterCount_clearPulses, hend]
    constructor <;> simp [State.afterCount, hins]

/-- High samples up to the ceiling are counted (41_bit_decoder.md R99). -/
theorem State.MeasuresPulse.run (h : s.MeasuresPulse gap n (xs ++ rest) t) (hp : s.params.ok = true)
    (hceil : n + xs.length ≤ s.params.bitCeil) (hreset : noReset xs) (hhigh : ∀ y ∈ xs, y.lineIn = true) :
    t.Reaches xs.length (s.MeasuresPulse gap (n + xs.length) rest) := by
  obtain ⟨hiter, htmr⟩ := Params.ok_ceil hp
  refine (State.count_run (h.params ▸ hp) (by rw [h.params, h.tmr]; omega) (by rw [h.params, h.iter]; omega)
    (op := .bitHigh) h.st (k := xs.length) fun j hj => ?_).imp fun u ⟨hrun, hu⟩ => ⟨hrun, ?_⟩
  · have hmem := State.afterCount_pins_mem h.inputs hj
    have hlt : (t.afterCount j).iter < (t.afterCount j).params.bitCeil := by
      simp only [State.afterCount, State.edgeFrame_params, h.iter, h.params]; omega
    exact ⟨hreset _ hmem, (if_pos (hhigh _ hmem)).trans (if_pos hlt)⟩
  · exact {
      params := (congrArg State.params hu).trans h.params
      st := (congrArg State.st hu).trans h.st
      tmr := (congrArg State.tmr hu).trans (by simp only [State.afterCount, h.params, h.tmr]; omega)
      iter := (congrArg State.iter hu).trans (by simp only [State.afterCount, h.params, h.iter]; omega)
      gapLat := (congrArg State.gapLat hu).trans h.gapLat
      sr := (congrArg State.sr hu).trans h.sr
      bitcnt := (congrArg State.bitcnt hu).trans h.bitcnt
      toSeen := (congrArg State.toSeen hu).trans h.toSeen
      inputs := (congrArg State.inputs hu).trans (by simp [State.afterCount, h.inputs]) }

/-- A gap and the high run behind it, up to the ceiling. -/
theorem State.pulse_run (hs : s.Inv) (hst : s.st = 6#4) {lows highs : List Inputs} (hreset : noReset (lows ++ highs))
    (hlow : ∀ y ∈ lows, y.lineIn = false) (hhigh : ∀ y ∈ highs, y.lineIn = true) (hne : highs ≠ [])
    (hins : s.inputs = lows ++ highs ++ rest) (hceil : highs.length ≤ s.params.bitCeil) :
    s.Reaches (lows.length + highs.length)
      (s.MeasuresPulse (min (s.tmr + lows.length) s.params.tmrMax) highs.length rest) := by
  obtain ⟨x, highs, rfl⟩ := List.exists_cons_of_ne_nil hne
  obtain ⟨hlows, hhighs⟩ := List.forall_mem_append.1 hreset
  obtain ⟨hx, hhighs⟩ := List.forall_mem_cons.1 hhighs
  obtain ⟨hx', hhigh⟩ := List.forall_mem_cons.1 hhigh
  rw [List.append_assoc] at hins
  rw [List.length_cons, Nat.add_comm highs.length 1] at hceil ⊢
  rw [← Nat.add_assoc]
  exact (State.gap_run hs hst hins hlows hlow hx hx').trans fun t ht => ht.run hs.paramsOk hceil hhighs hhigh

/-- The low sample behind the pulse records the comparator's bit (41_bit_decoder.md R100). -/
theorem State.MeasuresPulse.after_low (h : s.MeasuresPulse gap n (x :: rest) t) (hrst : x.rst = false)
    (hlow : x.lineIn = false) : t.after = t.afterBit (classify s.params n) false n 1 := by
  have hpins := State.pins_of_inputs h.inputs
  rw [State.after_operation (op := .bitHigh) (hpins ▸ hrst) h.st, ← (State.completeBit_eq_afterBit _ _ _ t).1]
  refine congrArg State.nextEdge ((if_neg ?_).trans ?_)
  · simp [State.lineRead, hpins, hlow]
  · simp [h.tmr, h.params]

/-- A high sample at the ceiling times the bit out, which records 0 (41_bit_decoder.md R101, R104). -/
theorem State.MeasuresPulse.after_ceiling (h : s.MeasuresPulse gap s.params.bitCeil (x :: rest) t)
    (hp : s.params.ok = true) (hrst : x.rst = false) (hhigh : x.lineIn = true) :
    t.after = t.afterBit false true (s.params.bitCeil + 1) 0 := by
  have hpins := State.pins_of_inputs h.inputs
  obtain ⟨-, htmr⟩ := Params.ok_ceil hp
  have hwidth : incT t.params t.tmr = s.params.bitCeil + 1 := by
    rw [h.params, h.tmr, incT_of_lt htmr]
  rw [State.after_operation (op := .bitHigh) (hpins ▸ hrst) h.st, ← (State.completeBit_eq_afterBit _ _ _ t).2, ← hwidth]
  refine congrArg State.nextEdge ((if_pos ?_).trans (if_neg ?_))
  · simp [State.lineRead, hpins, hhigh]
  · simp [h.iter, h.params]

end

/-- Settles O46: the run is counted up to the ceiling, and the sample behind it completes the bit. -/
theorem highRunDecodesByItsLength : Obligations.HighRunDecodesByItsLength := by
  intro s lows highs rest hs hst hreset hlow hhigh hne hins
  have hp := hs.paramsOk
  constructor
  · rintro hceil x later rfl hrst hline
    obtain ⟨t, hrun, ht⟩ := State.pulse_run hs hst hreset hlow hhigh hne hins hceil
    refine ⟨t.after, (runEdges_add hrun 1).trans (runEdges_succ (ht.params ▸ hp) 0), ?_⟩
    rw [ht.after_low hrst hline]
    simp [State.afterBit, ht.sr, ht.bitcnt, ht.toSeen, ht.gapLat, ht.inputs, BitVec.ofNat_add, classify, Params.tmrMax]
  · intro hlen
    obtain ⟨highs, x, rfl⟩ := (List.eq_nil_or_concat' highs).resolve_left hne
    obtain ⟨hhighs, hx⟩ := List.forall_mem_append.1 hhigh
    rw [← List.append_assoc, noReset, List.forall_mem_append] at hreset
    obtain ⟨hreset, hx'⟩ := hreset
    rw [List.length_append, List.length_singleton, Nat.add_left_inj] at hlen
    have hceil := (Params.ok_threshold hp).1.trans (Params.ok_threshold hp).2
    obtain ⟨t, hrun, ht⟩ := State.pulse_run hs hst hreset hlow hhighs (by rintro rfl; simp at hlen; omega)
      (rest := x :: rest) (by simp [hins]) hlen.le
    rw [hlen] at ht
    refine ⟨t.after, ?_, ?_⟩
    · rw [List.length_append, ← Nat.add_assoc]
      exact (runEdges_add hrun 1).trans (runEdges_succ (ht.params ▸ hp) 0)
    · rw [ht.after_ceiling hp (hx' x (by simp)) (hx x (by simp))]
      simp [State.afterBit, ht.sr, ht.bitcnt, ht.gapLat, ht.inputs, BitVec.ofNat_add, Params.tmrMax]

end Sys2Proof.Machine

/-! PROOFS. O54: the samples of a waveform, and the start signal's edges in closed form. -/

namespace Sys2Proof.Machine

/-! ### The samples of a waveform (30_encoding.md R70) -/

/-- A token gives its level to each of its samples, wherever it stands. -/
theorem Waveform.sample_token {before after : List Token} {token : Token} {last : Option LastToken} {n i : Nat}
    {level : Bool} (htoken : token.samples = List.replicate n level) (hi : i < n) :
    Waveform.sample ⟨before ++ token :: after, last⟩ ((waveSamples before).length + i) = some level := by
  have hsamples : waveSamples (before ++ token :: after) =
      waveSamples before ++ (List.replicate n level ++ waveSamples after) := by
    simp [waveSamples, htoken]
  rw [Waveform.sample, hsamples, List.getElem?_append_right (by omega), Nat.add_sub_cancel_left,
    List.getElem?_append_left (by simpa using hi), List.getElem?_replicate_of_lt hi, Option.some_or]

/-- The last token gives its level to every sample behind the tokens. -/
theorem Waveform.sample_last {tokens : List Token} {last : LastToken} {j : Nat} (hj : (waveSamples tokens).length ≤ j) :
    Waveform.sample ⟨tokens, some last⟩ j = some last.level := by
  rw [Waveform.sample, List.getElem?_eq_none hj]
  rfl

/-! ### The start signal's edges (40_handshake.md R76 to R78) -/

/-- What the acceptance of a request and the edges behind it, `k` in all, leave of `s` when `st` is then `code` and
`count` periods of that part of the start signal are counted. -/
def State.signalled (code : StCode) (count k : Nat) (s : State) : State :=
  { s.clearPulses.acceptStart with
    st := code
    tmr := count
    inputs := s.inputs.drop k
    edge := s.edge + k }

section
variable {s : State} {code : StCode} {count k : Nat}

theorem State.accept_signalled (s : State) : s.clearPulses.acceptStart.nextEdge = s.signalled 1#4 0 1 := by
  ext <;> simp [State.signalled]

theorem State.countPeriod_signalled (hcount : count < s.params.tmrMax) :
    (s.signalled code count k).countPeriod.nextEdge = s.signalled code (count + 1) (k + 1) := by
  ext <;> simp [State.signalled, incT_of_lt hcount, Nat.add_assoc]

theorem State.endStartLow_signalled :
    (s.signalled code count k).endStartLow.nextEdge = s.signalled 2#4 0 (k + 1) := by
  ext <;> simp [State.signalled, Nat.add_assoc]

theorem State.enterWait_signalled :
    ((s.signalled code count k).enterWait .hsWaitRel 0).nextEdge = s.signalled 3#4 0 (k + 1) := by
  ext <;> simp [State.signalled, Nat.add_assoc]

/-- A part of the start signal counts one period fewer than its `ticks`, whatever the line does, and its last edge
begins the next part. -/
theorem State.signal_part_run {op : Instr} {next : StCode} {ticks : Nat} {xs rest : List Inputs}
    (hp : s.params.ok = true) (hop : code = encode op) (hticks : 1 ≤ ticks ∧ ticks ≤ s.params.tmrMax)
    (hcount : ∀ count k, count < ticks - 1 →
      (s.signalled code count k).operation op = (s.signalled code count k).countPeriod)
    (hend : ∀ k, ((s.signalled code (ticks - 1) k).operation op).nextEdge = s.signalled next 0 (k + 1))
    (hins : s.inputs = xs ++ rest) (hreset : noReset xs) (hlen : k + ticks ≤ xs.length) :
    (∀ j < ticks, runEdges j (s.signalled code 0 k) = .next (s.signalled code j (k + j))) ∧
    runEdges ticks (s.signalled code 0 k) = .next (s.signalled next 0 (k + ticks)) := by
  have hafter : ∀ j < ticks, (s.signalled code j (k + j)).after =
      ((s.signalled code j (k + j)).operation op).nextEdge := fun j hj =>
    State.after_operation (hreset _ (State.pins_mem (congrArg (List.drop (k + j)) hins) (by omega))) hop
  have hcounts : ∀ j < ticks, runEdges j (s.signalled code 0 k) = .next (s.signalled code j (k + j)) := by
    intro j hj
    refine runEdges_along (x := fun j => s.signalled code j (k + j)) (fun _ _ => hp) fun i hi => ?_
    rw [hafter i (by omega), hcount i _ (by omega), State.countPeriod_signalled (by omega), Nat.add_assoc]
  refine ⟨hcounts, ?_⟩
  obtain ⟨m, rfl⟩ := Nat.exists_eq_add_of_le' hticks.1
  have hlast : (s.signalled code m (k + m)).after = s.signalled next 0 (k + m + 1) :=
    (hafter m m.lt_succ_self).trans (hend (k + m))
  rw [runEdges_add (hcounts m m.lt_succ_self) 1, runEdges_succ (s := s.signalled code m (k + m)) hp, hlast]
  rfl

/-- The whole start signal: the block stays below `HS_WAIT_REL` and then enters it, and all it keeps of the line is what
it has not yet read. -/
theorem State.signal_run {request : Inputs} {signal rest : List Inputs} (hp : s.params.ok = true) (hst : s.st = 0#4)
    (hins : s.inputs = (request :: signal) ++ rest) (hrst : request.rst = false) (hstart : request.start = true)
    (hreset : noReset signal) (hlen : signal.length = s.params.startLowTicks + s.params.startHighTicks) :
    (∀ k < 1 + s.params.startLowTicks + s.params.startHighTicks, s.Reaches k fun t => t.st.toNat < 3) ∧
    runEdges (1 + s.params.startLowTicks + s.params.startHighTicks) s =
      .next (s.signalled 3#4 0 (1 + s.params.startLowTicks + s.params.startHighTicks)) := by
  have hpins : s.pins = request := State.pins_of_inputs hins
  have haccept : runEdges 1 s = .next (s.signalled 1#4 0 1) := by
    rw [runEdges_succ hp, State.after_accept hst (hpins ▸ hrst) (hpins ▸ hstart), State.accept_signalled, runEdges_zero]
  have hreset' : noReset (request :: signal) := List.forall_mem_cons.2 ⟨hrst, hreset⟩
  obtain ⟨hlow, hlowEnd⟩ := State.signal_part_run (op := .startLow) (code := 1#4) (k := 1) hp rfl
    (Params.ok_startLow hp) (fun _ _ hcount => if_neg (Nat.not_le.2 hcount))
    (fun _ => (congrArg State.nextEdge (if_pos le_rfl)).trans State.endStartLow_signalled)
    hins hreset' (by rw [List.length_cons]; omega)
  obtain ⟨hhigh, hhighEnd⟩ := State.signal_part_run (op := .startHigh) (code := 2#4)
    (k := 1 + s.params.startLowTicks) hp rfl (Params.ok_startHigh hp) (fun _ _ hcount => if_neg (Nat.not_le.2 hcount))
    (fun _ => (congrArg State.nextEdge (if_pos le_rfl)).trans State.enterWait_signalled)
    hins hreset' (by rw [List.length_cons]; omega)
  rw [← runEdges_add haccept] at hlowEnd
  rw [← runEdges_add hlowEnd] at hhighEnd
  refine ⟨fun k hk => ?_, hhighEnd⟩
  by_cases hkaccept : k < 1
  · obtain rfl : k = 0 := by omega
    exact .zero (by rw [hst]; decide)
  by_cases hklow : k < 1 + s.params.startLowTicks
  · obtain ⟨j, rfl⟩ := Nat.exists_eq_add_of_le (Nat.le_of_not_lt hkaccept)
    exact ⟨_, (runEdges_add haccept j).trans (hlow j (by omega)), (by decide : (1#4).toNat < 3)⟩
  · obtain ⟨j, rfl⟩ := Nat.exists_eq_add_of_le (Nat.le_of_not_lt hklow)
    exact ⟨_, (runEdges_add hlowEnd j).trans (hhigh j (by omega)), (by decide : (2#4).toNat < 3)⟩

end

/-- When the pin levels before a waveform are read, its tokens' samples are the queue of inputs. -/
theorem Waveform.placeAfter_inputs_drop (w : Waveform) {before : List Inputs} {k : Nat} (hlen : before.length = k)
    (diagEn : Bool) (s : State) :
    (w.placeAfter before diagEn s).inputs.drop k = lineInputs diagEn (waveSamples w.tokens) :=
  List.drop_left' hlen

/-- Of the levels before a waveform the start signal leaves nothing. -/
theorem State.signalled_placeAfter (w : Waveform) {before before' : List Inputs} {k : Nat} (hlen : before.length = k)
    (hlen' : before'.length = k) (code : StCode) (count : Nat) (diagEn : Bool) (s : State) :
    (w.placeAfter before diagEn s).signalled code count k = (w.placeAfter before' diagEn s).signalled code count k := by
  simp only [State.signalled, w.placeAfter_inputs_drop hlen, w.placeAfter_inputs_drop hlen']
  rfl

/-- Settles O54: the start signal takes up the levels before the waveform, and nothing of them is left. -/
theorem waveformIsReadFromItsFirstSample : Obligations.WaveformIsReadFromItsFirstSample := by
  refine ⟨fun _ _ _ _ _ hi => ⟨Waveform.sample_token rfl hi, Waveform.sample_token rfl hi⟩,
    fun _ _ hj => ⟨Waveform.sample_last hj, Waveform.sample_last hj⟩, rfl, ?_⟩
  intro s w request signal diagEn hp hst hrst hstart hreset hlen first placed
  have hfirst : (request :: signal).length = first := by simp only [List.length_cons, first]; omega
  obtain ⟨hbefore, hrun⟩ := State.signal_run (s := placed) hp hst rfl hrst hstart hreset hlen
  refine ⟨hbefore, ⟨_, hrun, rfl, rfl, rfl, ?_⟩, ?_⟩
  · intro request' signal' hrst' hstart' hreset' hlen'
    have hfirst' : (request' :: signal').length = first := (congrArg (· + 1) hlen').trans hfirst
    obtain ⟨-, hrun'⟩ := State.signal_run (s := w.placeAfter (request' :: signal') diagEn s) hp hst rfl hrst' hstart'
      hreset' (hlen'.trans hlen)
    exact hrun'.trans (congrArg Host.Outcome.next (State.signalled_placeAfter w hfirst' hfirst 3#4 0 diagEn s))
  · intro j level hsample
    obtain ⟨t, hrun, -⟩ := runEdges_total (s := placed) hp (first + j)
    obtain ⟨hins, hheld⟩ := runEdges_inputs hrun
    rw [← List.drop_drop, w.placeAfter_inputs_drop hfirst] at hins
    exact ⟨t, hrun, State.pins_of_waveform hins hheld hsample⟩

end Sys2Proof.Machine

/-! PROOFS. O7: the reserved codes. -/

namespace Sys2Proof.Machine

/-- A reserved code goes back to `IDLE` (40_handshake.md R87). -/
theorem State.after_reserved {s : State} (hrst : s.pins.rst = false) (h9 : 9 ≤ s.st.toNat) :
    s.after = s.clearPulses.reservedOp.nextEdge := by
  rw [State.after_run hrst, State.operationOf, decode_reserved h9]

/-- Settles O7: a reserved code is not one of the two that drive the line, and not that of `IDLE`. -/
theorem reservedCodeReturnsToIdle : Obligations.ReservedCodeReturnsToIdle := by
  intro s hp hrst h9
  have hne : ∀ c : StCode, c.toNat < 9 → s.st ≠ c := by
    intro c hc hst
    rw [hst] at h9
    omega
  refine ⟨?_, ?_, ?_⟩
  · rw [step_eq hp, State.after_reserved hrst h9]
    rfl
  · rw [State.lineOe, ← Bool.not_eq_true, lineDrive_oe_iff, not_or]
    exact ⟨hne 1#4 (by decide), hne 2#4 (by decide)⟩
  · exact decide_eq_true (hne 0#4 (by decide))

end Sys2Proof.Machine

/-! PROOFS. O10, O11: `IDLE`. -/

namespace Sys2Proof.Machine

/-- What an operation makes of the registers, its edge makes of the state. -/
theorem exec_of_operation {i : Instr} {s t : State} (h : s.clearPulses.operation i = t) :
    exec i s = .next t.nextEdge := by
  rw [exec_eq, h]

/-- Settles O10. -/
theorem idleWithoutStartKeepsEverything : Obligations.IdleWithoutStartKeepsEverything := fun s hstart =>
  exec_of_operation (t := s.clearPulses) (if_neg (by simp [hstart]))

/-- Only `IDLE` reads `start` (40_handshake.md R76). -/
theorem exec_setStart {i : Instr} (hi : i ≠ .idle) (s : State) (x : Inputs) (rest : List Inputs) (v : Bool) :
    exec i { s with inputs := x :: rest } = exec i { s with inputs := { x with start := v } :: rest } := by
  have hop := State.operation_setInputs i s.clearPulses (x :: rest) ({ x with start := v } :: rest)
    (fun h => absurd h hi) (fun _ => rfl) (fun _ => rfl)
  rw [exec_of_operation hop, exec_eq]
  congr 1
  -- The two states differ in the first entry of the queue alone, which the edge uses up.
  ext <;> simp <;> rfl

/-- Settles O11. -/
theorem idleAcceptsStart : Obligations.IdleAcceptsStart :=
  ⟨fun s hstart => exec_of_operation (t := s.clearPulses.acceptStart) (if_pos hstart),
    fun _ s x rest v hi => exec_setStart hi s x rest v⟩

end Sys2Proof.Machine

/-! PROOFS. O14, O15, O16: the handshake waits. -/

namespace Sys2Proof.Machine

/-! ### One edge of a wait -/

section
variable {s : State} {level : Bool} {next : Instr}

theorem State.handshakeWait_leaves (hline : s.pins.lineIn ≠ level) :
    s.handshakeWait level next = s.enterWait next 1 := if_pos hline

theorem State.handshakeWait_aborts (hline : s.pins.lineIn = level)
    (hcap : ∃ c, s.params.hsWaitCap = some c ∧ c ≤ s.iter) :
    s.handshakeWait level next = s.raiseHandshakeTimeout :=
  (if_neg (not_not.2 hline)).trans (if_pos (s.capReached_iff.2 hcap))

theorem State.handshakeWait_counts (hline : s.pins.lineIn = level)
    (hcap : ∀ c, s.params.hsWaitCap = some c → s.iter < c) : s.handshakeWait level next = s.countSample := by
  have hbelow : ¬ s.capReached = true := by
    rw [s.capReached_iff]
    rintro ⟨c, hc, hle⟩
    exact absurd (hcap c hc) (Nat.not_lt.2 hle)
  exact (if_neg (not_not.2 hline)).trans (if_neg hbelow)

end

/-- The operation of a handshake wait is `State.handshakeWait`, from its level to its successor. -/
theorem HandshakePhase.operation_next {ph : HandshakePhase} (h : ph ∈ handshakePhases) :
    ∃ next, ph.next = encode next ∧ State.operation ph.op = State.handshakeWait ph.level next := by
  simp only [handshakePhases, List.mem_cons, List.not_mem_nil, or_false] at h
  rcases h with rfl | rfl | rfl <;> exact ⟨_, by decide, rfl⟩

/-- Settles O14, case by case of `State.handshakeWait`. -/
theorem handshakeWaitTakesOneEdge : Obligations.HandshakeWaitTakesOneEdge := by
  intro ph hph s
  obtain ⟨next, hnext, hop⟩ := ph.operation_next hph
  have hexec {t : State} (h : s.clearPulses.handshakeWait ph.level next = t) : exec ph.op s = .next t.nextEdge :=
    exec_of_operation (by rw [hop, h])
  refine ⟨fun hline => ?_, fun hline hcap => ?_, fun hline hcap => ?_⟩
  · rw [hexec (State.handshakeWait_leaves hline), hnext]; rfl
  · rw [hexec (State.handshakeWait_aborts hline hcap)]; rfl
  · rw [hexec (State.handshakeWait_counts hline hcap)]; rfl

/-! ### Samples at the waiting level -/

/-- A wait that its cap allows counts the samples at its level, and no cycle ends. -/
theorem State.wait_run {ph : HandshakePhase} (hph : ph ∈ handshakePhases) {s : State} (hs : s.Inv)
    (hst : s.st = ph.code) {xs rest : List Inputs} (hins : s.inputs = xs ++ rest) (hreset : noReset xs)
    (hlevel : ∀ x ∈ xs, x.lineIn = ph.level)
    (hcap : ∀ c, s.params.hsWaitCap = some c → s.iter + xs.length ≤ c) :
    s.Reaches xs.length fun t => t.clearPulses = s.afterCount xs.length ∧ t.busy = true ∧ t.done = false := by
  obtain ⟨hcode, next, hop⟩ := ph.operation_eq hph
  obtain ⟨t, hrun, ht⟩ := State.count_run hs.paramsOk hs.tmrFits hs.iterFits (hst.trans hcode) (k := xs.length)
    fun j hj => by
      have hmem := State.afterCount_pins_mem hins hj
      have hbelow : ∀ c, s.params.hsWaitCap = some c → (s.afterCount j).iter < c := fun c hc =>
        (Nat.min_le_left _ _).trans_lt (Nat.lt_of_lt_of_le (Nat.add_lt_add_left hj _) (hcap c hc))
      exact ⟨hreset _ hmem, by rw [hop, State.handshakeWait_counts (hlevel _ hmem) hbelow]⟩
  have hcode' : t.st = ph.code := (congrArg State.st ht :).trans hst
  have hbusy : t.st ≠ 0#4 := by
    obtain ⟨h3, -⟩ := ph.code_bounds hph
    intro h0
    rw [← hcode', h0] at h3
    contradiction
  have hinv : t.Inv := runEdges_keeps (fun _ hu _ => hu.after) hs hrun
  obtain ⟨-, -, hdone⟩ := hinv.noResultWhileBusy hbusy
  exact ⟨t, hrun, ht, decide_eq_true hbusy, hdone⟩

/-- Settles O15: without a cap every sample at the waiting level is counted, and `rst` = 1 goes before the wait. -/
theorem handshakeHangsWithoutCap : Obligations.HandshakeHangsWithoutCap := by
  intro ph hph s xs rest hs hst hnone hreset hlevel hins
  obtain ⟨t, hrun, ht, hbusy, hdone⟩ := State.wait_run hph hs hst hins hreset hlevel fun c hc => by
    cases hnone.symm.trans hc
  refine ⟨t, hrun, (congrArg State.st ht).trans hst, hbusy, hdone, (congrArg State.valid ht :),
    (congrArg State.err ht :), congrArg State.tmr ht, congrArg State.iter ht, ?_, fun hrst => ?_⟩
  · exact (runEdges_inputs hrun).1.trans (hins ▸ List.drop_left)
  · have hp : t.params.ok = true := (congrArg (fun u => u.params.ok) ht).trans hs.paramsOk
    refine ⟨t.after, step_eq hp, ?_⟩
    rw [State.after_reset hrst]
    exact ⟨rfl, rfl⟩

/-- `CHECK` gives no cycle the code of a handshake abort (42_frame_checksum.md R118). -/
theorem verdictErr_ne_errHandshake (p : Params) (x : Frame) (toSeen : Bool) :
    verdictErr p x toSeen ≠ 1#2 := by
  unfold verdictErr
  split
  · decide
  · split <;> decide

/-- The code of a handshake abort is set by a handshake abort alone (40_handshake.md R83). -/
theorem EdgeCase.aborts_of_err {s t : State} (h : EdgeCase s t) (hbefore : s.err ≠ 1#2) (hafter : t.err = 1#2) :
    s.AbortsHandshake := by
  cases h
  case waitAbort ph hph _ hst hline hcap => exact ⟨ph, hph, hst, hline, s.capReached_iff.1 hcap⟩
  case reset => cases hafter
  case idleAccept => cases hafter
  case verdict => exact absurd hafter (verdictErr_ne_errHandshake _ _ _)
  case pulseTimeout => exact absurd (by simpa using hafter) hbefore
  case pulseEnd => exact absurd (by simpa using hafter) hbefore
  all_goals exact absurd hafter hbefore

/-- Settles O16: the samples within the cap are counted, the next one aborts, and an edge that sets the code is such an
abort. -/
theorem handshakeAbortsAtTheCap : Obligations.HandshakeAbortsAtTheCap := by
  refine ⟨?_, fun s t hbefore hstep hafter => ?_⟩
  · intro ph hph s c xs x rest hs hst hcap hreset hlevel hcount hins
    obtain ⟨hresets, hresetx⟩ := List.forall_mem_append.1 hreset
    obtain ⟨hlevels, hlevelx⟩ := List.forall_mem_append.1 hlevel
    obtain ⟨t, hrun, ht, -, hdone⟩ := State.wait_run hph hs hst hins hresets hlevels fun c' hc' =>
      hcount.le.trans (Option.some.inj (hcap.symm.trans hc')).le
    obtain ⟨-, hfits⟩ := Params.ok_cap hs.paramsOk hcap
    have hcode : t.st = ph.code := (congrArg State.st ht).trans hst
    have hparams : t.params = s.params := (congrArg State.params ht :)
    have hiter : t.iter = c := by
      refine (congrArg State.iter ht).trans ?_
      rw [State.afterCount, hcount, Nat.min_eq_left hfits]
    have hpins : t.pins = x := by
      refine State.pins_of_inputs (xs := rest) ?_
      rw [(runEdges_inputs hrun).1, hins, List.drop_left]
    have habort : t.AbortsHandshake :=
      ⟨ph, hph, hcode, hpins ▸ hlevelx x (by simp), c, hparams ▸ hcap, hiter.ge⟩
    have hnext : t.after = t.clearPulses.raiseHandshakeTimeout.nextEdge :=
      habort.after (hpins ▸ hresetx x (by simp))
    obtain ⟨h3, h5, -⟩ := ph.code_bounds hph
    obtain ⟨hbitcnt, hsr, -⟩ := hs.beforeData (by rw [hst]; omega) (by rw [hst]; omega)
    refine ⟨t, t.clearPulses.raiseHandshakeTimeout.nextEdge, hrun, hcode, hiter, hdone, ?_, rfl, rfl, rfl, rfl, rfl,
      hiter, ?_, ?_, rfl⟩
    · rw [step_eq (hparams ▸ hs.paramsOk), hnext]
    · exact (congrArg State.sr ht).trans hsr
    · exact (congrArg State.bitcnt ht).trans hbitcnt
  · obtain ⟨ph, hph, hst, hline, hcap⟩ := (edge_of_step hstep).2.aborts_of_err hbefore hafter
    exact ⟨hcap, ph, hph, hst, hline⟩

end Sys2Proof.Machine

/-! PROOFS. O12, O13: the two parts of the start signal, from any state in which they begin. -/

namespace Sys2Proof.Machine

/-- In a run over `xs`, none of which resets the block, each edge performs the operation whose code `st` holds. -/
theorem State.after_of_run {s t : State} {k : Nat} (hrun : runEdges k s = .next t) {xs rest : List Inputs}
    (hins : s.inputs = xs ++ rest) (hreset : noReset xs) (hk : k < xs.length) {op : Instr} (hcode : t.st = encode op) :
    t.after = (t.clearPulses.operation op).nextEdge := by
  have hdrop : t.inputs = (xs ++ rest).drop k := hins ▸ (runEdges_inputs hrun).1
  exact State.after_operation (hreset _ (State.pins_mem hdrop hk)) hcode

section
variable {op : Instr} {ticks : Params → Nat} {ended : State → State}
  (hop : ∀ x : State, x.operation op = if ticks x.params - 1 ≤ x.tmr then ended x else x.countPeriod)
  {s : State} (hp : s.params.ok = true) (hticks : 1 ≤ ticks s.params ∧ ticks s.params ≤ s.params.tmrMax)
  (hst : s.st = encode op) (htmr : s.tmr = 0) {xs rest : List Inputs} (hreset : noReset xs)
  (hlen : xs.length = ticks s.params) (hins : s.inputs = xs ++ rest)
include hop hp hticks hst htmr hreset hlen hins

/-- A part of the start signal is held below its `ticks`, whatever the line does, and counts the periods (40_handshake.md
R77, R78). -/
theorem State.held_below_ticks {k : Nat} (hk : k < ticks s.params) :
    s.Reaches k fun t => t.params = s.params ∧ t.st = encode op ∧ t.tmr = k := by
  induction k with
  | zero => exact .zero ⟨rfl, hst, htmr⟩
  | succ k ih =>
    obtain ⟨t, hrun, hparams, hcode, htmr'⟩ := ih (by omega)
    have hcount : t.clearPulses.operation op = t.clearPulses.countPeriod := by
      rw [hop, State.clearPulses_params, State.clearPulses_tmr, hparams, htmr', if_neg (by omega)]
    refine ⟨t.after, (runEdges_add hrun 1).trans (runEdges_succ (hparams ▸ hp) 0), ?_⟩
    rw [State.after_of_run hrun hins hreset (by omega) hcode, hcount]
    refine ⟨hparams, hcode, ?_⟩
    simp [hparams, htmr', incT_of_lt (show k < s.params.tmrMax by omega)]

/-- The last of the `ticks` edges leaves it. -/
theorem State.ended_at_ticks : s.Reaches (ticks s.params) fun t => (∃ x, t = (ended x).nextEdge) ∧ t.inputs = rest := by
  obtain ⟨last, hlast⟩ := Nat.exists_eq_add_of_le' hticks.1
  obtain ⟨t, hrun, hparams, hcode, htmr'⟩ :=
    State.held_below_ticks hop hp hticks hst htmr hreset hlen hins (k := last) (by omega)
  have hend : t.clearPulses.operation op = ended t.clearPulses := by
    rw [hop, State.clearPulses_params, State.clearPulses_tmr, hparams, htmr', if_pos (by omega)]
  have hrun' : runEdges (ticks s.params) s = .next t.after := by
    rw [hlast, runEdges_add hrun 1, runEdges_succ (hparams ▸ hp), runEdges_zero]
  refine ⟨t.after, hrun', ⟨t.clearPulses, ?_⟩, ?_⟩
  · rw [State.after_of_run hrun hins hreset (by omega) hcode, hend]
  · rw [(runEdges_inputs hrun').1, hins, ← hlen, List.drop_left]

end

/-- Settles O12: the two cases of `START_LOW`, and the visit they make. -/
theorem startLowDrivesLowForItsTicks : Obligations.StartLowDrivesLowForItsTicks := by
  refine ⟨fun s hend => ?_, fun s hcount => ?_, fun s xs rest hp hst htmr hreset hlen hins => ?_⟩
  · exact exec_of_operation (t := s.clearPulses.endStartLow) (if_pos hend)
  · exact exec_of_operation (t := s.clearPulses.countPeriod) (if_neg (Nat.not_le.2 hcount))
  have hfits := Params.ok_startLow hp
  have hop (x : State) := (rfl : x.operation .startLow = x.startLowOp)
  obtain ⟨_, hrun, ⟨x, rfl⟩, hrest⟩ :=
    State.ended_at_ticks (ticks := Params.startLowTicks) hop hp hfits hst htmr hreset hlen hins
  refine ⟨fun k hk => ?_, _, hrun, rfl, rfl, hrest⟩
  obtain ⟨t, hrun, -, hcode, -⟩ :=
    State.held_below_ticks (ticks := Params.startLowTicks) hop hp hfits hst htmr hreset hlen hins hk
  exact ⟨t, hrun, hcode, (lineDrive_oe_iff _).2 (.inl hcode), (lineDrive_out_iff _).2 hcode⟩

/-- Settles O13: the two cases of `START_HIGH`, and the visit they make. -/
theorem startHighDrivesHighForItsTicks : Obligations.StartHighDrivesHighForItsTicks := by
  refine ⟨fun s hend => ?_, fun s hcount => ?_, fun s xs rest hp hst htmr hreset hlen hins => ?_⟩
  · exact exec_of_operation (t := s.clearPulses.enterWait .hsWaitRel 0) (if_pos hend)
  · exact exec_of_operation (t := s.clearPulses.countPeriod) (if_neg (Nat.not_le.2 hcount))
  have hfits := Params.ok_startHigh hp
  have hop (x : State) := (rfl : x.operation .startHigh = x.startHighOp)
  obtain ⟨_, hrun, ⟨x, rfl⟩, hrest⟩ :=
    State.ended_at_ticks (ticks := Params.startHighTicks) hop hp hfits hst htmr hreset hlen hins
  refine ⟨fun k hk => ?_, _, hrun, rfl, rfl, rfl, rfl, hrest⟩
  obtain ⟨t, hrun, -, hcode, -⟩ :=
    State.held_below_ticks (ticks := Params.startHighTicks) hop hp hfits hst htmr hreset hlen hins hk
  refine ⟨t, hrun, hcode, (lineDrive_oe_iff _).2 (.inr hcode), ?_⟩
  rw [State.lineOut, hcode]
  rfl

end Sys2Proof.Machine

/-! PROOFS. O42: `diag_en` takes part in an edge as the level of a strobe alone (41_bit_decoder.md R108), so an edge of
a block and an edge of the same block with `diag_en` at 0 leave the same in every register but the two strobes. That no
operation reads a diagnostics register stands with O43. -/

namespace Sys2Proof.Machine

namespace State

/-! ### What `diag_en` leaves alone -/

/-- The coming edge reads the same pins without `diag_en`, but for `diag_en` itself. -/
theorem eraseDiagEn_pins (s : State) : withoutDiagEn s.eraseDiagEn.pins = withoutDiagEn s.pins := by
  simp only [pins, eraseDiagEn]
  cases s.inputs with
  | cons x later => rfl
  | nil => cases s.held <;> rfl

theorem eraseDiagEn_rst (s : State) : s.eraseDiagEn.pins.rst = s.pins.rst :=
  (congrArg Inputs.rst s.eraseDiagEn_pins :)

theorem eraseDiagEn_start (s : State) : s.eraseDiagEn.pins.start = s.pins.start :=
  (congrArg Inputs.start s.eraseDiagEn_pins :)

theorem eraseDiagEn_lineRead (s : State) : s.eraseDiagEn.lineRead = s.lineRead :=
  (congrArg Inputs.lineIn s.eraseDiagEn_pins :)

theorem eraseDiagEn_eraseDiagEn (s : State) : s.eraseDiagEn.eraseDiagEn = s.eraseDiagEn := by
  have hcomp : withoutDiagEn ∘ withoutDiagEn = withoutDiagEn := rfl
  simp [eraseDiagEn, hcomp]

theorem eraseDiagEn_nextEdge (s : State) : s.eraseDiagEn.nextEdge = s.nextEdge.eraseDiagEn := by
  simp [eraseDiagEn, nextEdge, List.map_tail]

theorem eraseDiagEn_resetEdge (s : State) : s.eraseDiagEn.resetEdge = s.resetEdge.eraseDiagEn := by
  simp [eraseDiagEn, resetEdge, reset, List.map_tail]

/-! ### The operations -/

/-- An operation that completes no bit does not read `diag_en`. -/
theorem eraseDiagEn_operation_of_ne {i : Instr} (hi : i ≠ .bitHigh) (s : State) :
    s.eraseDiagEn.operation i = (s.operation i).eraseDiagEn := by
  have hwait (level next) : s.eraseDiagEn.handshakeWait level next = (s.handshakeWait level next).eraseDiagEn := by
    simp only [handshakeWait, eraseDiagEn_lineRead, apply_ite eraseDiagEn]; rfl
  cases i
  case idle => simp only [operation, idleOp, eraseDiagEn_start, apply_ite eraseDiagEn]; rfl
  case startLow => simp only [operation, startLowOp, apply_ite eraseDiagEn]; rfl
  case startHigh => simp only [operation, startHighOp, apply_ite eraseDiagEn]; rfl
  case bitGap => simp only [operation, bitGapOp, eraseDiagEn_lineRead, apply_ite eraseDiagEn]; rfl
  case bitHigh => exact absurd rfl hi
  case check => rfl
  all_goals exact hwait _ _

/-- A completed bit has `diag_en` in its strobes alone (41_bit_decoder.md R106, R107). -/
theorem eraseDiagEn_completeBit (b t : Bool) (w : Nat) (s : State) :
    (s.eraseDiagEn.completeBit b t w).eraseDiagEn = (s.completeBit b t w).eraseDiagEn := by
  rw [← (s.completeBit b t w).eraseDiagEn_eraseDiagEn]
  ext <;> simp [eraseDiagEn]

theorem eraseDiagEn_bitHighOp (s : State) : s.eraseDiagEn.bitHighOp.eraseDiagEn = s.bitHighOp.eraseDiagEn := by
  have htimeout := congrArg (fun r => r.markBitTimeout.restartCounters 0)
    (eraseDiagEn_completeBit false true (incT s.params s.tmr) s)
  have hend := congrArg (restartCounters 1) (eraseDiagEn_completeBit (classify s.params s.tmr) false s.tmr s)
  simp only [bitHighOp, eraseDiagEn_lineRead, apply_ite eraseDiagEn]
  exact ite_congr rfl (fun _ => ite_congr rfl (fun _ => s.countSample.eraseDiagEn_eraseDiagEn) fun _ => htimeout)
    fun _ => hend

theorem eraseDiagEn_operationOf (c : StCode) (s : State) :
    (s.eraseDiagEn.operationOf c).eraseDiagEn = (s.operationOf c).eraseDiagEn := by
  unfold operationOf
  split
  next i _ =>
    by_cases hi : i = .bitHigh
    · rw [hi]; exact s.eraseDiagEn_bitHighOp
    · rw [eraseDiagEn_operation_of_ne hi, eraseDiagEn_eraseDiagEn]
  next => exact s.reservedOp.eraseDiagEn_eraseDiagEn

/-! ### Edges and runs -/

/-- An edge takes `diag_en` to the strobes alone. -/
theorem eraseDiagEn_after (s : State) : s.eraseDiagEn.after.eraseDiagEn = s.after.eraseDiagEn := by
  simp only [after, eraseDiagEn_rst, apply_ite eraseDiagEn]
  refine ite_congr rfl (fun _ => ?_) fun _ => ?_
  · rw [eraseDiagEn_resetEdge, eraseDiagEn_eraseDiagEn]
  · rw [← eraseDiagEn_nextEdge, ← eraseDiagEn_nextEdge]
    exact congrArg nextEdge (eraseDiagEn_operationOf s.st s.clearPulses)

end State

/-- Runs of two blocks that agree on what `erase` keeps go on agreeing on it, if no edge reads what it drops. -/
theorem runEdges_agree {erase : State → State} (hparams : ∀ s, (erase s).params = s.params)
    (hafter : ∀ s, erase (erase s).after = erase s.after) {s u : State} (hp : s.params.ok = true)
    (h : erase s = erase u) (k : Nat) :
    ∃ t v, runEdges k s = .next t ∧ runEdges k u = .next v ∧ erase t = erase v := by
  induction k generalizing s u with
  | zero => exact ⟨s, u, rfl, rfl, h⟩
  | succ k ih =>
    have hu : u.params = s.params := by rw [← hparams u, ← h, hparams]
    rw [runEdges_succ hp, runEdges_succ (hu ▸ hp)]
    refine ih (by simpa using hp) ?_
    rw [← hafter s, h, hafter]

/-- Settles O42: `diag_en` reaches the strobes alone, which no line output depends on, and the diagnostics group reaches
nothing. -/
theorem diagnosticsAreInvisible : Obligations.DiagnosticsAreInvisible := by
  refine ⟨fun s u k hp h => ?_, fun s u k hp h => ?_⟩
  · obtain ⟨t, v, ht, hv, htv⟩ :=
      runEdges_agree (erase := State.eraseDiagEn) (fun _ => rfl) State.eraseDiagEn_after hp h k
    have hst : t.st = v.st := (congrArg State.st htv :)
    exact ⟨t, v, ht, hv, htv, congrArg (fun c => (lineDrive c).oe) hst, congrArg (fun c => (lineDrive c).out) hst⟩
  · exact runEdges_agree (erase := State.eraseDiagnostics) (fun _ => rfl) State.eraseDiagnostics_after hp h k

end Sys2Proof.Machine

/-! PROOFS. O17, O19, O20, O21, O23: one edge of `BIT_GAP` and of `BIT_HIGH`, and the comparator. -/

namespace Sys2Proof.Machine

/-! ### The branches of the two operations -/

section
variable {s : State}

theorem State.bitGapOp_counts (hlow : s.pins.lineIn = false) : s.bitGapOp = s.countSample :=
  if_neg (by simp [State.lineRead, hlow])

theorem State.bitGapOp_ends (hhigh : s.pins.lineIn = true) :
    s.bitGapOp = (s.enterWait .bitHigh 1).latchGap s.tmr := if_pos hhigh

theorem State.bitHighOp_counts (hhigh : s.pins.lineIn = true) (hiter : s.iter < s.params.bitCeil) :
    s.bitHighOp = s.countSample := (if_pos hhigh).trans (if_pos hiter)

theorem State.bitHighOp_timesOut (hhigh : s.pins.lineIn = true) (hiter : s.params.bitCeil ≤ s.iter) :
    s.bitHighOp = (s.completeBit false true (incT s.params s.tmr)).markBitTimeout.restartCounters 0 :=
  (if_pos hhigh).trans (if_neg (Nat.not_lt.2 hiter))

theorem State.bitHighOp_classifies (hlow : s.pins.lineIn = false) :
    s.bitHighOp = (s.completeBit (classify s.params s.tmr) false s.tmr).restartCounters 1 :=
  if_neg (by simp [State.lineRead, hlow])

end

/-! ### The statements -/

/-- Settles O17, by the two branches of `BIT_GAP`. -/
theorem bitGapCountsLowAndLeavesOnHigh : Obligations.BitGapCountsLowAndLeavesOnHigh := fun s =>
  ⟨fun hlow => exec_of_operation (i := .bitGap) (s := s) (State.bitGapOp_counts hlow),
    fun hhigh => exec_of_operation (i := .bitGap) (s := s) (State.bitGapOp_ends hhigh)⟩

/-- Settles O19: the counters have room above the ceiling (00_scope.md R11). -/
theorem bitHighCountsBelowTheCeiling : Obligations.BitHighCountsBelowTheCeiling := by
  intro s hhigh hiter
  have hexec := exec_of_operation (i := .bitHigh) (s := s) (State.bitHighOp_counts hhigh hiter)
  refine ⟨hexec, fun hs hst => ⟨?_, hiter⟩⟩
  obtain ⟨heq, -, -⟩ := hs.pulseCount hst
  obtain ⟨hitermax, htmrmax⟩ := Params.ok_ceil hs.paramsOk
  have htmr : incT s.params s.tmr = s.tmr + 1 := incT_of_lt (by omega)
  have hcnt : incI s.params s.iter = s.iter + 1 := incI_of_lt (by omega)
  rw [hexec, State.countSample, State.clearPulses_params, State.clearPulses_tmr, State.clearPulses_iter, htmr, hcnt]
  rfl

/-- Settles O20: the low sample's branch, with `CompleteBit` as `State.afterBit` writes it out. -/
theorem bitHighClassifiesAtTheFallingEdge : Obligations.BitHighClassifiesAtTheFallingEdge := by
  intro s hlow
  rw [exec_of_operation (i := .bitHigh) (State.bitHighOp_classifies (s := s.clearPulses) hlow)]
  exact congrArg _ (State.completeBit_eq_afterBit _ _ _ s).1

/-- Settles O21: the ceiling's branch, with `CompleteBit` as `State.afterBit` writes it out. -/
theorem bitHighTimesOutAtTheCeiling : Obligations.BitHighTimesOutAtTheCeiling := by
  intro s hhigh hiter
  rw [exec_of_operation (i := .bitHigh) (State.bitHighOp_timesOut (s := s.clearPulses) hhigh hiter)]
  exact congrArg _ (State.completeBit_eq_afterBit _ _ _ s).2

/-- Settles O23: the comparator decides `THRESHOLD_TICKS` <= n. -/
theorem classifyIncludesTheThreshold : Obligations.ClassifyIncludesTheThreshold :=
  ⟨fun _ _ => decide_eq_true_iff, fun p hp => by simp [classify, hp]⟩

end Sys2Proof.Machine

/-! PROOFS. O18, O47, O48, O49: how long the block stays in the data phase. -/

namespace Sys2Proof.Machine

/-- Every run keeps the invariant. -/
theorem State.Inv.run {s t : State} (hs : s.Inv) {k : Nat} (hrun : runEdges k s = .next t) : t.Inv :=
  runEdges_keeps (fun _ hu _ => hu.after) hs hrun

/-- No run changes a parameter (70_reset_and_hazards.md R170). -/
theorem runEdges_params {s t : State} {k : Nat} (hrun : runEdges k s = .next t) : t.params = s.params :=
  runEdges_keeps (P := fun u => u.params = s.params) (fun u hu _ => u.after_params.trans hu) rfl hrun

theorem State.Reaches.mono {s : State} {k : Nat} {P Q : State → Prop} (h : s.Reaches k P) (hPQ : ∀ t, P t → Q t) :
    s.Reaches k Q :=
  h.imp fun t ht => ht.imp_right (hPQ t)

/-! ### A gap that does not end -/

/-- Settles O18: `BIT_GAP` counts every low sample, and `rst` = 1 goes before it. -/
theorem bitGapHangsOnALowLine : Obligations.BitGapHangsOnALowLine := by
  intro s xs rest hs hst hreset hlow hins
  obtain ⟨t, hrun, ht⟩ := State.count_run hs.paramsOk hs.tmrFits hs.iterFits (op := .bitGap) hst (k := xs.length)
    fun j hj => by
      have hmem := State.afterCount_pins_mem hins hj
      exact ⟨hreset _ hmem, State.bitGapOp_counts (hlow _ hmem)⟩
  have hcode : t.st = 6#4 := (congrArg State.st ht).trans hst
  have hbusy : t.st ≠ 0#4 := by rw [hcode]; decide
  have hinv := hs.run hrun
  obtain ⟨-, -, hdone⟩ := hinv.noResultWhileBusy hbusy
  refine ⟨t, hrun, hcode, decide_eq_true hbusy, hdone, (congrArg State.bitcnt ht :), (congrArg State.sr ht :),
    congrArg State.tmr ht, (runEdges_inputs hrun).1.trans (hins ▸ List.drop_left), fun hrst => ?_⟩
  refine ⟨t.after, step_eq hinv.paramsOk, ?_⟩
  rw [State.after_reset hrst]
  exact ⟨rfl, rfl⟩

/-! ### A visit to `BIT_HIGH` -/

/-- `t` is in `BIT_HIGH` with the frame of `s`. -/
def State.StillInPulse (s t : State) : Prop :=
  t.st = 7#4 ∧ t.bitcnt = s.bitcnt ∧ t.sr = s.sr

/-- `t` has one bit more than `s` and has gone on to the next gap, or after the fortieth bit to `CHECK`
(41_bit_decoder.md R102). -/
def State.BitRecorded (s t : State) : Prop :=
  t.st = (if s.bitcnt = 39#6 then 8#4 else 6#4) ∧ t.bitcnt.toNat = s.bitcnt.toNat + 1

theorem State.StillInPulse.trans {s t u : State} (h : s.StillInPulse t) (hu : t.StillInPulse u) : s.StillInPulse u := by
  obtain ⟨-, hcnt, hsr⟩ := h
  obtain ⟨hcode, hcnt', hsr'⟩ := hu
  exact ⟨hcode, hcnt'.trans hcnt, hsr'.trans hsr⟩

theorem State.StillInPulse.bitRecorded {s t u : State} (h : s.StillInPulse t) (hu : t.BitRecorded u) :
    s.BitRecorded u := by
  obtain ⟨-, hcnt, -⟩ := h
  rwa [State.BitRecorded, hcnt] at hu

/-- An edge of `BIT_HIGH` counts a sample below the ceiling or records a bit (41_bit_decoder.md R99 to R101). -/
theorem State.Inv.bitHigh_edge {s : State} (hs : s.Inv) (hst : s.st = 7#4) (hrst : s.pins.rst = false) :
    (s.iter < s.params.bitCeil ∧ s.after = s.clearPulses.countSample.nextEdge) ∨ s.BitRecorded s.after := by
  have hlt := hs.inData (.inr hst)
  have hrecorded (b t w n) : s.BitRecorded (s.afterBit b t w n) := by
    refine ⟨rfl, ?_⟩
    simp only [State.afterBit, BitVec.toNat_ofNat]; omega
  have hafter := State.after_operation (op := .bitHigh) hrst hst
  rcases s.clearPulses.bitHighOp_cases with ⟨-, hiter, e⟩ | ⟨-, -, e⟩ | ⟨-, e⟩ <;> rw [State.operation, e] at hafter
  · exact .inl ⟨hiter, hafter⟩
  · exact .inr (hafter.trans (State.completeBit_eq_afterBit _ _ _ s).2 ▸ hrecorded _ _ _ _)
  · exact .inr (hafter.trans (State.completeBit_eq_afterBit _ _ _ s).1 ▸ hrecorded _ _ _ _)

/-- A visit to `BIT_HIGH` records one bit, at the latest at the edge that finds the ceiling counted (41_bit_decoder.md
R110). -/
theorem State.Inv.bitHigh_visit {s : State} (hs : s.Inv) (hst : s.st = 7#4) {xs rest : List Inputs}
    (hins : s.inputs = xs ++ rest) (hreset : noReset xs) (hlen : s.params.bitCeil < s.iter + xs.length) :
    ∃ k, 1 ≤ k ∧ s.iter + k ≤ s.params.bitCeil + 1 ∧ s.Reaches k s.BitRecorded ∧
      ∀ j < k, s.Reaches j s.StillInPulse := by
  induction xs generalizing s with
  | nil =>
    obtain ⟨-, -, hceil⟩ := hs.pulseCount hst
    exact absurd hceil (Nat.not_le.2 hlen)
  | cons x xs ih =>
    obtain ⟨-, -, hceil⟩ := hs.pulseCount hst
    have hp := hs.paramsOk
    have hhere : s.Reaches 0 s.StillInPulse := .zero ⟨hst, rfl, rfl⟩
    obtain ⟨hx, hreset⟩ := List.forall_mem_cons.1 hreset
    have hrst : s.pins.rst = false := State.pins_of_inputs hins ▸ hx
    rcases hs.bitHigh_edge hst hrst with ⟨hiter, hafter⟩ | hbit
    · have hstay : s.StillInPulse s.after := hafter ▸ ⟨hst, rfl, rfl⟩
      have hcnt : s.after.iter = s.iter + 1 :=
        (congrArg State.iter hafter).trans (incI_of_lt (hiter.trans_le (Params.ok_ceil hp).1))
      rw [List.length_cons] at hlen
      obtain ⟨k, h1, hk, hbit, hstill⟩ := ih hs.after hstay.1 (by rw [State.after_inputs, hins]; rfl) hreset
        (by rw [State.after_params, hcnt]; omega)
      rw [State.after_params, hcnt] at hk
      refine ⟨k + 1, by omega, by omega, .cons hp (hbit.mono fun _ => hstay.bitRecorded), fun j hj => ?_⟩
      cases j with
      | zero => exact hhere
      | succ j => exact .cons hp ((hstill j (by omega)).mono fun _ => hstay.trans)
    · refine ⟨1, le_rfl, by omega, .cons hp (.zero hbit), fun j hj => ?_⟩
      obtain rfl : j = 0 := by omega
      exact hhere

/-- Settles O47: the first sample of the pulse is counted before the visit (41_bit_decoder.md R97). -/
theorem bitHighVisitIsBounded : Obligations.BitHighVisitIsBounded := by
  intro s xs rest hs hst hreset hlen hins
  obtain ⟨-, hiter, -⟩ := hs.pulseCount hst
  obtain ⟨k, h1, hk, ⟨t, hrun, hcode, hcnt⟩, hstill⟩ := hs.bitHigh_visit hst hins hreset (by omega)
  refine ⟨k, t, h1, by omega, hrun, ?_, hcnt, hstill⟩
  rw [hcode]
  split <;> decide

/-! ### Gaps of bounded length -/

/-- No run of consecutive low samples of `xs` is longer than `g`. -/
def LowRunsAtMost (g : Nat) (xs : List Inputs) : Prop :=
  ∀ before lows later, xs = before ++ lows ++ later → (∀ x ∈ lows, x.lineIn = false) → lows.length ≤ g

theorem LowRunsAtMost.drop {g : Nat} {xs : List Inputs} (h : LowRunsAtMost g xs) (k : Nat) :
    LowRunsAtMost g (xs.drop k) := by
  intro before lows later hxs hlow
  refine h (xs.take k ++ before) lows later ?_ hlow
  rw [List.append_assoc, List.append_assoc, ← List.append_assoc before, ← hxs, List.take_append_drop]

/-- More than `g` samples have a high one among them, behind a low run of at most `g`. -/
theorem LowRunsAtMost.exists_high {g : Nat} {xs : List Inputs} (h : LowRunsAtMost g xs) (hlen : g < xs.length) :
    ∃ lows x later, xs = lows ++ x :: later ∧ lows.length ≤ g ∧ (∀ y ∈ lows, y.lineIn = false) ∧ x.lineIn = true := by
  cases hfind : xs.find? Inputs.lineIn with
  | none =>
    have hlow : ∀ y ∈ xs, y.lineIn = false := by simpa using hfind
    exact absurd (h [] xs [] (by simp) hlow) (Nat.not_le.2 hlen)
  | some x =>
    obtain ⟨hhigh, lows, later, rfl, hlow⟩ := List.find?_eq_some_iff_append.1 hfind
    have hlow : ∀ y ∈ lows, y.lineIn = false := by simpa using hlow
    exact ⟨lows, x, later, rfl, h [] lows (x :: later) rfl hlow, hlow, hhigh⟩

section
variable {s : State} {g m : Nat} {xs rest : List Inputs}

/-- A missing bit takes at most `g` low samples, the high one behind them, and a visit to `BIT_HIGH`. -/
theorem State.Inv.bit_within (hs : s.Inv) (hst : s.st = 6#4) (hins : s.inputs = xs ++ rest) (hreset : noReset xs)
    (hlow : LowRunsAtMost g xs) (hlen : g + s.params.bitCeil + 1 ≤ xs.length) :
    ∃ k, k ≤ g + s.params.bitCeil + 1 ∧ s.Reaches k s.BitRecorded := by
  obtain ⟨lows, x, later, rfl, hg, hlows, hhigh⟩ := hlow.exists_high (by omega)
  obtain ⟨hlowsReset, hreset⟩ := List.forall_mem_append.1 hreset
  obtain ⟨hx, hlater⟩ := List.forall_mem_cons.1 hreset
  obtain ⟨t, hrun, ht⟩ := State.gap_run hs hst (rest := later ++ rest) (by simp [hins]) hlowsReset hlows hx hhigh
  have hceil : t.params.bitCeil = s.params.bitCeil := congrArg Params.bitCeil ht.params
  rw [List.length_append, List.length_cons] at hlen
  obtain ⟨k, -, hk, hbit, -⟩ := (hs.run hrun).bitHigh_visit ht.st ht.inputs hlater (by rw [hceil, ht.iter]; omega)
  rw [hceil, ht.iter] at hk
  refine ⟨lows.length + 1 + k, by omega, State.Reaches.trans ⟨t, hrun, rfl⟩ ?_⟩
  rintro _ rfl
  refine hbit.mono fun u hu => ?_
  rwa [State.BitRecorded, ht.bitcnt] at hu

/-- The missing bits, one after another, up to `CHECK`. -/
theorem State.Inv.data_within (hs : s.Inv) (hst : s.st = 6#4) (hins : s.inputs = xs ++ rest) (hreset : noReset xs)
    (hlow : LowRunsAtMost g xs) (hm : s.bitcnt.toNat + m = 40)
    (hlen : m * (g + s.params.bitCeil + 1) ≤ xs.length) :
    ∃ k, k ≤ m * (g + s.params.bitCeil + 1) ∧ s.Reaches k fun t => t.st = 8#4 := by
  induction m generalizing s xs with
  | zero =>
    have := hs.inData (.inl hst)
    omega
  | succ m ih =>
    rw [Nat.succ_mul] at hlen ⊢
    obtain ⟨k, hk, t, hrun, hcode, hcnt⟩ := hs.bit_within hst hins hreset hlow (by omega)
    by_cases h39 : s.bitcnt = 39#6
    · rw [if_pos h39] at hcode
      exact ⟨k, by omega, t, hrun, hcode⟩
    · rw [if_neg h39] at hcode
      have hins' : t.inputs = xs.drop k ++ rest := by
        rw [(runEdges_inputs hrun).1, hins, List.drop_append_of_le_length (by omega)]
      have hceil := congrArg Params.bitCeil (runEdges_params hrun)
      obtain ⟨k', hk', hend⟩ := ih (hs.run hrun) hcode hins' (fun x hx => hreset x (List.mem_of_mem_drop hx))
        (hlow.drop k) (by omega) (by rw [hceil, List.length_drop]; omega)
      rw [hceil] at hk'
      exact ⟨k + k', by omega, State.Reaches.trans ⟨t, hrun, rfl⟩ (by rintro _ rfl; exact hend)⟩

end

/-- `CHECK` takes one edge (42_frame_checksum.md R118). -/
theorem step_check {s : State} (hp : s.params.ok = true) (hst : s.st = 8#4) (hrst : s.pins.rst = false) :
    step s = .next s.clearPulses.checkOp.nextEdge := by
  rw [step_eq hp, State.after_operation (op := .check) hrst hst]
  rfl

/-- Settles O48: the missing bits one after another, and then `CHECK`. -/
theorem dataPhaseEndsWhenGapsEnd : Obligations.DataPhaseEndsWhenGapsEnd := by
  intro s g xs rest hs hst hreset hlow hlen hrest hins
  have hlt := hs.inData (.inl hst)
  obtain ⟨k, hk, t, hrun, hcode⟩ := hs.data_within hst hins (fun x hx => hreset x (List.mem_append_left rest hx)) hlow
    (m := 40 - s.bitcnt.toNat) (by omega) hlen.ge
  have hinv := hs.run hrun
  have hkxs : k < (xs ++ rest).length := by
    have := List.length_pos_iff.2 hrest
    rw [List.length_append]; omega
  have hins' : t.inputs = (xs ++ rest ++ []).drop k := by
    rw [(runEdges_inputs hrun).1, hins, List.append_nil]
  have hrst : t.pins.rst = false := hreset _ (State.pins_mem hins' hkxs)
  exact ⟨k, t, _, hk.trans hlen.ge, hrun, hcode, hinv.atCheck hcode, step_check hinv.paramsOk hcode hrst, rfl, rfl,
    verdictValid_iff _ _ _⟩

/-! ### A line stuck high -/

/-- `t` is `s` after `m` bits more, all of them timed out (41_bit_decoder.md R105); `rest` is the queue of inputs. -/
structure State.TimedOut (s : State) (m : Nat) (rest : List Inputs) (t : State) : Prop where
  st : t.st = if s.bitcnt.toNat + m = 40 then 8#4 else 6#4
  bitcnt : t.bitcnt.toNat = s.bitcnt.toNat + m
  sr : t.sr = s.sr <<< m
  toSeen : t.toSeen = true
  tmr : t.tmr = 0
  iter : t.iter = 0
  inputs : t.inputs = rest

section
variable {s : State} {m : Nat} {xs rest : List Inputs}

theorem State.TimedOut.succ {t u : State} (h : s.TimedOut m xs t) (hu : t.TimedOut 1 rest u) :
    s.TimedOut (m + 1) rest u where
  st := by rw [hu.st, h.bitcnt, Nat.add_assoc]
  bitcnt := by rw [hu.bitcnt, h.bitcnt, Nat.add_assoc]
  sr := by rw [hu.sr, h.sr, BitVec.shiftLeft_add]
  toSeen := hu.toSeen
  tmr := hu.tmr
  iter := hu.iter
  inputs := hu.inputs

/-- High samples up to one beyond the ceiling time a bit out (30_encoding.md R59). -/
theorem State.Inv.timeout_run (hs : s.Inv) (hst : s.st = 6#4) (hins : s.inputs = xs ++ rest) (hreset : noReset xs)
    (hhigh : ∀ x ∈ xs, x.lineIn = true) (hlen : xs.length = s.params.bitCeil + 1) :
    s.Reaches xs.length (s.TimedOut 1 rest) := by
  have hlt := hs.inData (.inl hst)
  have hne : xs ≠ [] := List.ne_nil_of_length_eq_add_one hlen
  obtain ⟨-, htimeout⟩ := highRunDecodesByItsLength s [] xs rest hs hst hreset (by simp) hhigh hne hins
  obtain ⟨t, hrun, hsr, hcnt, hto, hcode, htmr, hiter, -, -, -, -, hrest⟩ := htimeout hlen
  rw [List.length_nil, Nat.zero_add] at hrun
  have h39 : s.bitcnt = 39#6 ↔ s.bitcnt.toNat + 1 = 40 := by
    rw [← BitVec.toNat_inj]; simp
  refine ⟨t, hrun, ?_, ?_, hsr, hto, htmr, hiter, hrest⟩
  · simp only [hcode, h39]
  · have hone : (1#6).toNat = 1 := rfl
    rw [hcnt, BitVec.toNat_add, hone]; omega

/-- Each further bit takes one sample more than the ceiling (41_bit_decoder.md R105). -/
theorem State.Inv.stuck_high_run (hs : s.Inv) (hst : s.st = 6#4) (hins : s.inputs = xs ++ rest) (hreset : noReset xs)
    (hhigh : ∀ x ∈ xs, x.lineIn = true) (hm : s.bitcnt.toNat + (m + 1) ≤ 40)
    (hlen : xs.length = (m + 1) * (s.params.bitCeil + 1)) : s.Reaches xs.length (s.TimedOut (m + 1) rest) := by
  induction m generalizing xs rest with
  | zero => exact hs.timeout_run hst hins hreset hhigh (by simpa using hlen)
  | succ m ih =>
    rw [Nat.succ_mul] at hlen
    obtain ⟨first, last, rfl, hfirst⟩ : ∃ first last, xs = first ++ last ∧
        first.length = (m + 1) * (s.params.bitCeil + 1) :=
      ⟨_, _, (List.take_append_drop _ xs).symm, List.length_take_of_le (by omega)⟩
    rw [List.length_append, hfirst, Nat.add_left_cancel_iff] at hlen
    obtain ⟨hreset, hresetLast⟩ := List.forall_mem_append.1 hreset
    obtain ⟨hhigh, hhighLast⟩ := List.forall_mem_append.1 hhigh
    obtain ⟨t, hrun, ht⟩ := ih (rest := last ++ rest) (by rw [hins, List.append_assoc]) hreset hhigh (by omega) hfirst
    have hceil := congrArg Params.bitCeil (runEdges_params hrun)
    have hlast := (hs.run hrun).timeout_run (ht.st.trans (if_neg (by omega))) ht.inputs hresetLast hhighLast
      (hlen.trans (by rw [hceil]))
    rw [List.length_append]
    refine State.Reaches.trans ⟨t, hrun, rfl⟩ ?_
    rintro _ rfl
    exact hlast.mono fun _ => ht.succ

end

/-- Settles O49: every missing bit times out, and `CHECK` sees the mark. -/
theorem stuckHighLineEndsInBitTimeout : Obligations.StuckHighLineEndsInBitTimeout := by
  intro s xs y rest hs hst hreset hhigh hlen hy hins
  have hlt := hs.inData (.inl hst)
  obtain ⟨m, hm⟩ := Nat.exists_eq_add_of_lt hlt
  have hmissing : 40 - s.bitcnt.toNat = m + 1 := by omega
  rw [hmissing] at hlen ⊢
  obtain ⟨t, hrun, ht⟩ := hs.stuck_high_run hst hins hreset hhigh (by omega) hlen
  have hcode : t.st = 8#4 := ht.st.trans (if_pos (by omega))
  have hinv := hs.run hrun
  have hrst : t.pins.rst = false := State.pins_of_inputs ht.inputs ▸ hy
  have hverdict : verdictValid t.params t.sr t.toSeen = false ∧ verdictErr t.params t.sr t.toSeen = 2#2 := by
    simp [verdictValid, verdictErr, ht.toSeen]
  exact ⟨t, _, hrun, hcode, hinv.atCheck hcode, ht.sr, ht.toSeen, ht.tmr, ht.iter,
    step_check hinv.paramsOk hcode hrst, rfl, hverdict.1, hverdict.2, rfl, congrArg List.tail ht.inputs⟩

end Sys2Proof.Machine

/-! PROOFS. O24, O26: a byte and its eight bits in order of arrival. -/

namespace Sys2Proof.Machine

/-- Bits shifted into a byte leave the low byte of what the same bits leave in the frame register. -/
theorem foldl_shiftInByte (bits : List Bool) (x : Frame) :
    bits.foldl shiftInByte (x.setWidth 8) = (bits.foldl shiftIn x).setWidth 8 :=
  List.foldl_hom (fun y : Frame => y.setWidth 8) fun y b => by rw [shiftInByte_eq, shiftIn_eq]

/-- After eight bits the byte holds these in order of arrival, whatever it held (42_frame_checksum.md R116). -/
theorem byteBits_foldl_shiftInByte (b : Fin 8 → Bool) (x : Byte) :
    byteBits ((List.ofFn b).foldl shiftInByte x) = b := by
  have hx : x = (x.setWidth 40).setWidth 8 := by simp
  funext i
  have hlt : 7 - i.val < 8 := by omega
  have hpos : (List.ofFn b).length - 1 - (7 - i) = i := by rw [List.length_ofFn]; omega
  rw [byteBits, hx, foldl_shiftInByte, BitVec.getLsbD_setWidth, decide_eq_true hlt, Bool.true_and,
    foldl_shiftIn_getLsbD _ _ (by rwa [List.length_reverse, List.length_ofFn]) (by omega), List.getElem_reverse,
    List.getElem_ofFn]
  simp only [hpos]

/-- The byte's number is the value of its eight bits (R116). -/
theorem foldl_shiftInByte_toNat (b : Fin 8 → Bool) (x : Byte) :
    ((List.ofFn b).foldl shiftInByte x).toNat = toByteValue b := by
  rw [← toByteValue_byteBits, byteBits_foldl_shiftInByte]

/-- Settles O24: the bound is that of a byte. -/
theorem eightShiftsAssembleAByte : Obligations.EightShiftsAssembleAByte := fun b x =>
  ⟨foldl_shiftInByte_toNat b x, foldl_shiftInByte_toNat b x ▸ Nat.le_of_lt_succ (BitVec.isLt _)⟩

/-- Settles O26: the byte with the value of eight bits is the one the bits leave when shifted in. -/
theorem byteValueIsABijection : Obligations.ByteValueIsABijection := by
  refine ⟨toByteValue_byteBits, fun b => ?_⟩
  rw [← foldl_shiftInByte_toNat b 0#8, BitVec.ofNat_toNat, BitVec.setWidth_eq, byteBits_foldl_shiftInByte]

end Sys2Proof.Machine

/-! PROOFS. O22, O27, O28: the checksum, in both settings of `CSUM_WIDE`, and the verdict of `CHECK`. -/

namespace Sys2Proof.Machine

/-! ### The checksum (42_frame_checksum.md R119, R120) -/

section
variable (p : Params) (x : Frame)

/-- The sum of the four data bytes over the frame's number (R119). -/
theorem byteSum_eq :
    byteSum x = x.toNat / 2 ^ 32 % 256 + x.toNat / 2 ^ 24 % 256 + x.toNat / 2 ^ 16 % 256 + x.toNat / 2 ^ 8 % 256 := by
  obtain ⟨hhum, hhumFrac, htemp, htempFrac, -⟩ := fields_toNat x
  rw [byteSum, hhum, hhumFrac, htemp, htempFrac]

theorem byteSum_le : byteSum x ≤ 1020 := by
  rw [byteSum_eq]; omega

theorem checksumByte_toNat : (checksumByte x).toNat = x.toNat % 256 := by
  obtain ⟨-, -, -, -, hchecksum⟩ := fields_toNat x
  exact hchecksum

/-- The comparison of each setting (R120). -/
theorem checksumOk_iff : checksumOk p x = true ↔
    if p.csumWide then byteSum x = (checksumByte x).toNat else byteSum x % 256 = (checksumByte x).toNat := by
  cases h : p.csumWide <;> simp [checksumOk, h]

variable {p x}

theorem checksumOk_iff_modulo (h : p.csumWide = false) :
    checksumOk p x = true ↔ byteSum x % 256 = (checksumByte x).toNat := by
  simp [checksumOk_iff, h]

theorem checksumOk_iff_wide (h : p.csumWide = true) :
    checksumOk p x = true ↔ byteSum x = (checksumByte x).toNat := by
  simp [checksumOk_iff, h]

/-- A frame that passes in either setting passes modulo 256 (10_state.md R27, R121). -/
theorem byteSum_mod_of_checksumOk (h : checksumOk p x = true) : byteSum x % 256 = (checksumByte x).toNat := by
  cases hwide : p.csumWide
  · exact (checksumOk_iff_modulo hwide).1 h
  · rw [(checksumOk_iff_wide hwide).1 h]
    exact Nat.mod_eq_of_lt (checksumByte x).isLt

end

/-- Settles O27: the wide form wants a sum below 256, and there the two forms agree. -/
theorem checksumComparesModulo256 : Obligations.ChecksumComparesModulo256 := by
  intro p x
  have hbyte := (checksumByte x).isLt
  refine ⟨byteSum_eq x, checksumByte_toNat x, byteSum_le x, checksumOk_iff_modulo, checksumOk_iff_wide,
    fun hwide hsum => ?_, fun hsum => ?_⟩
  · rw [← Bool.not_eq_true, checksumOk_iff_wide hwide]
    omega
  · rw [Bool.eq_iff_iff, checksumOk_iff_wide rfl, checksumOk_iff_modulo rfl, Nat.mod_eq_of_lt hsum]

/-! ### One bit of the frame inverted (R122) -/

/-- Inverting bit `i` of a frame changes the byte it lies in, and no other. -/
theorem byte_flip_eq_iff (x : Frame) {i first : Nat} (hi : i < 40) :
    (x ^^^ (1#40 <<< i)).toNat / 2 ^ first % 256 = x.toNat / 2 ^ first % 256 ↔ i < first ∨ first + 8 ≤ i := by
  have hbyte : ∀ y : Frame, y.toNat / 2 ^ first % 256 = (y.extractLsb' first 8).toNat := fun y => by
    rw [BitVec.extractLsb'_toNat, Nat.shiftRight_eq_div_pow]
  rw [hbyte, hbyte, BitVec.toNat_inj]
  change (x ^^^ BitVec.twoPow 40 i).extractLsb' first 8 = _ ↔ _
  constructor
  · intro heq
    by_contra hin
    have hbit := congrArg (fun v => v.getLsbD (i - first)) heq
    have hpos : first + (i - first) = i := by omega
    have hlt : i - first < 8 := by omega
    simp [hpos, hlt, hi] at hbit
  · intro hout
    apply BitVec.eq_of_getLsbD_eq
    intro j hj
    have hne : i ≠ first + j := by omega
    simp [hne]

/-- A frame and the same frame with one bit inverted do not both pass: they differ in one byte, so the sum of the data
bytes moves modulo 256 or the checksum byte does, and not both. -/
theorem checksumOk_flip {p : Params} {x : Frame} {i : Nat} (hi : i < 40) (hok : checksumOk p x = true) :
    checksumOk p (x ^^^ (1#40 <<< i)) = false := by
  by_contra hflip
  have hx := byteSum_mod_of_checksumOk hok
  have hy := byteSum_mod_of_checksumOk (Bool.eq_true_of_not_eq_false hflip)
  rw [byteSum_eq, checksumByte_toNat] at hx hy
  have hhum := byte_flip_eq_iff x (first := 32) hi
  have hhumFrac := byte_flip_eq_iff x (first := 24) hi
  have htemp := byte_flip_eq_iff x (first := 16) hi
  have htempFrac := byte_flip_eq_iff x (first := 8) hi
  have hchecksum := byte_flip_eq_iff x (first := 0) hi
  generalize x ^^^ 1#40 <<< i = y at *
  omega

/-- In the modulo setting the difference of sum and checksum modulo 256 decides. -/
theorem checksumOk_iff_difference {p : Params} (h : p.csumWide = false) (x : Frame) :
    checksumOk p x = true ↔ (byteSum x + (256 - (checksumByte x).toNat)) % 256 = 0 := by
  have hbyte := (checksumByte x).isLt
  rw [checksumOk_iff_modulo h]
  omega

/-- Settles O28: `checksumOk_flip` for one inverted bit, and equal differences give equal verdicts. -/
theorem singleBitChangeIsCaught : Obligations.SingleBitChangeIsCaught := by
  refine ⟨fun _ _ _ => checksumOk_flip, fun p x y hmodulo hdifference => ?_⟩
  rw [Bool.eq_iff_iff, checksumOk_iff_difference hmodulo, checksumOk_iff_difference hmodulo, hdifference]

/-! ### The verdict (R118) -/

/-- The edge of `CHECK` leaves the verdict and nothing else. -/
theorem exec_check (s : State) : exec .check s = .next { s.edgeFrame with
    valid := verdictValid s.params s.sr s.toSeen, err := verdictErr s.params s.sr s.toSeen, done := true, st := 0#4 } :=
  rfl

/-- Settles O22: a timeout goes before the checksum, and without one the checksum decides. -/
theorem checkGivesTheVerdict : Obligations.CheckGivesTheVerdict := by
  intro s sum ok
  have hiff : checksumOk s.params s.sr = true ↔ ok := by
    rw [checksumOk_iff, byteSum_eq, checksumByte_toNat]
  rw [exec_check, ← hiff]
  refine ⟨fun hok hseen => ?_, fun hok hseen => ?_, fun hseen => ?_⟩
  · simp [verdictValid, verdictErr, hok, hseen]
  · simp [verdictValid, verdictErr, hok, hseen]
  · simp [verdictValid, verdictErr, hseen]

end Sys2Proof.Machine

/-! PROOFS. O35: a result with `valid` = 1. -/

namespace Sys2Proof.Machine

/-- Under the invariant a result with `valid` = 1 is sound (10_state.md R27, 42_frame_checksum.md R121). -/
theorem State.Inv.soundResult {s : State} (hs : s.Inv) (hvalid : s.valid = true) : s.SoundResult := by
  obtain ⟨herr, hok, hseen, hcnt⟩ := hs.validSound hvalid
  have hsum := byteSum_mod_of_checksumOk hok
  rw [byteSum_eq, checksumByte_toNat] at hsum
  exact ⟨hsum, hseen, hcnt, herr⟩

/-- A block with parameters in range comes out of reset with the invariant (70_reset_and_hazards.md R160, R170). -/
theorem State.resetWith_inv {p : Params} (hp : p.ok = true) (xs : List Inputs) (h : Option Inputs) :
    (State.resetWith p xs h).Inv := by
  constructor <;> simp [State.resetWith, State.reset, hp]

/-- Settles O35: every edge and every run keep the invariant. -/
theorem validReadingIsSound : Obligations.ValidReadingIsSound :=
  ⟨fun _ _ hs hstep => (hs.edge (edge_of_step hstep).2).soundResult,
    fun _ xs h _ _ hp hrun => ((State.resetWith_inv hp xs h).run hrun).soundResult⟩

end Sys2Proof.Machine

/-! PROOFS. O44: the block idles. -/

namespace Sys2Proof.Machine

/-- What `k` edges in `IDLE` without a request leave of `s` (40_handshake.md R75): the pulse registers are 0, and every
other register is kept. -/
def State.afterIdling (k : Nat) (s : State) : State :=
  { s.edgeFrame with
    inputs := s.inputs.drop k
    edge := s.edge + k }

/-- An edge in `IDLE` without a request assigns nothing. -/
theorem State.after_idle {s : State} (hst : s.st = 0#4) (hrst : s.pins.rst = false) (hstart : s.pins.start = false) :
    s.after = s.edgeFrame := by
  rw [State.after_operation (op := .idle) hrst hst]
  exact congrArg State.nextEdge (if_neg (by simp [hstart]))

/-- What one more edge leaves. -/
theorem State.edgeFrame_afterIdling (k : Nat) (s : State) : (s.afterIdling k).edgeFrame = s.afterIdling (k + 1) := by
  simp [State.afterIdling, State.edgeFrame, Nat.add_assoc]

/-- A run of edges in `IDLE` without a request. -/
theorem State.idle_run {s : State} (hp : s.params.ok = true) (hst : s.st = 0#4) {xs rest : List Inputs}
    (hreset : noReset xs) (hstart : ∀ x ∈ xs, x.start = false) (hins : s.inputs = xs ++ rest) (hne : xs ≠ []) :
    runEdges xs.length s = .next (s.afterIdling xs.length) := by
  obtain ⟨k, hk⟩ := Nat.exists_eq_add_one.2 (List.length_pos_iff.2 hne)
  have hmem : ∀ j < xs.length, (s.afterIdling j).pins ∈ xs := fun j hj =>
    State.pins_mem (congrArg (List.drop j) hins) hj
  have hedge : ∀ j < xs.length, (s.afterIdling j).after = s.afterIdling (j + 1) := fun j hj => by
    rw [State.after_idle (s := s.afterIdling j) hst (hreset _ (hmem j hj)) (hstart _ (hmem j hj)),
      State.edgeFrame_afterIdling]
  -- `s.afterIdling 0` is `s` but for the pulse registers, which no edge reads.
  have hfirst : s.after = s.afterIdling 1 := hedge 0 (by omega)
  rw [hk, runEdges_succ hp, hfirst]
  exact runEdges_along (x := fun j => s.afterIdling (j + 1)) (fun _ _ => hp) fun j hj => hedge (j + 1) (by omega)

/-- Settles O44: the state a run of idle edges leaves differs from the first in nothing the result shows. -/
theorem resultHoldsWhileIdle : Obligations.ResultHoldsWhileIdle := by
  intro s xs rest hp hst hreset hstart hins
  cases xs with
  | nil => exact ⟨s, rfl, hst, rfl, rfl, rfl, rfl, fun h => absurd rfl h⟩
  | cons x xs =>
    have hrun := State.idle_run hp hst hreset hstart hins (List.cons_ne_nil x xs)
    exact ⟨_, hrun, hst, rfl, rfl, rfl, rfl, fun _ => ⟨rfl, rfl⟩⟩

end Sys2Proof.Machine

/-! PROOFS. O30, O31: the data outputs and what the Reading Sink is handed. -/

namespace Sys2Proof.Machine

/-! ### The gated outputs (42_frame_checksum.md R123) -/

section
variable {s : State}

theorem State.gated_of_valid (field : Frame → Byte) (h : s.valid = true) : s.gated field = field s.sr := if_pos h

/-- Without a valid result every data output is 0. -/
theorem State.dataOutputs_of_not_valid (h : s.valid = false) :
    s.dataOutputs = (0#8, 0#8, 0#8, 0#8, 0#12, 0#12) := by
  have hgated : ∀ field, s.gated field = 0#8 := fun field => by simp [State.gated, h]
  simp [State.dataOutputs, State.tempX10, State.humX10, State.humInt, State.humFrac, State.tempInt, State.tempFrac,
    hgated, tenths]

/-- With a valid result the byte outputs are the data bytes of the frame (R115). -/
theorem State.byteOutputs_of_valid (h : s.valid = true) :
    s.humInt.toNat = s.sr.toNat / 2 ^ 32 ∧ s.humFrac.toNat = s.sr.toNat / 2 ^ 24 % 256 ∧
      s.tempInt.toNat = s.sr.toNat / 2 ^ 16 % 256 ∧ s.tempFrac.toNat = s.sr.toNat / 2 ^ 8 % 256 := by
  have hgated := fun field => State.gated_of_valid field h
  obtain ⟨hhum, hhumFrac, htemp, htempFrac, -⟩ := fields_toNat s.sr
  have hsr := s.sr.isLt
  simp only [State.humInt, State.humFrac, State.tempInt, State.tempFrac, hgated]
  omega

end

/-! ### The Reading Sink (R124) -/

/-- The sink is handed one of three things: nothing, a Reading, or the failure with its cause. -/
theorem State.sinkEvent_cases (s : State) :
    (s.done = false ∧ s.sinkEvent = .none) ∨
    (s.done = true ∧ s.valid = true ∧
      s.sinkEvent = .reading (toReading s.tempInt s.tempFrac) (toReading s.humInt s.humFrac)) ∨
    (s.done = true ∧ s.valid = false ∧ s.sinkEvent = .readFailed s.err) := by
  cases hdone : s.done <;> cases hvalid : s.valid <;> simp [State.sinkEvent, hdone, hvalid]

/-- Settles O30: `valid` gates the outputs, the invariant keeps it 0 during a cycle, and the sink has three cases. -/
theorem dataOutputsAreGatedByValid : Obligations.DataOutputsAreGatedByValid := by
  intro s
  refine ⟨State.byteOutputs_of_valid, fun h => ?_, fun hs hbusy => ?_, ?_⟩
  · simpa [State.dataOutputs] using State.dataOutputs_of_not_valid h
  · obtain ⟨hvalid, -⟩ := hs.noResultWhileBusy (of_decide_eq_true hbusy)
    exact ⟨hvalid, State.dataOutputs_of_not_valid hvalid⟩
  · rcases s.sinkEvent_cases with ⟨hdone, e⟩ | ⟨hdone, hvalid, e⟩ | ⟨hdone, hvalid, e⟩
    · simp [hdone, e]
    · simp [hdone, hvalid, e]
    · simp [hdone, hvalid, e]

/-! ### The converter (R127, R129) -/

/-- Twelve bits hold ten times a byte and another byte. -/
theorem tenths_toNat (whole frac : Byte) : (tenths whole frac).toNat = 10 * whole.toNat + frac.toNat := by
  have hwhole := whole.isLt
  have hfrac := frac.isLt
  simp [tenths, BitVec.toNat_mul, BitVec.toNat_add]
  omega

theorem tenths_le (whole frac : Byte) : (tenths whole frac).toNat ≤ 2805 := by
  have hwhole := whole.isLt
  have hfrac := frac.isLt
  rw [tenths_toNat]
  omega

/-- The converter makes ten times the exact reading. -/
theorem tenths_eq_toReading (whole frac : Byte) : ((tenths whole frac).toNat : Rat) = 10 * toReading whole frac := by
  rw [tenths_toNat, toReading]
  push_cast
  ring

/-- Settles O31: both outputs are the converter's, so what holds of `tenths` for any two bytes holds of them. -/
theorem converterOutputsAreExactTenths : Obligations.ConverterOutputsAreExactTenths := by
  intro s
  have htemp : (s.tempX10.toNat : Rat) = 10 * toReading s.tempInt s.tempFrac := tenths_eq_toReading _ _
  refine ⟨tenths_toNat _ _, tenths_toNat _ _, tenths_le _ _, tenths_le _ _, fun h => ?_, ?_, htemp,
    tenths_eq_toReading _ _⟩
  · have hzero := State.dataOutputs_of_not_valid h
    simp only [State.dataOutputs, Prod.mk.injEq] at hzero
    obtain ⟨-, -, -, -, htempZero, hhumZero⟩ := hzero
    exact ⟨htempZero, hhumZero⟩
  · rw [htemp, toReading]
    ring

end Sys2Proof.Machine

/-! PROOFS. O9, O34: an edge with parameters in range has a next state, and a run of such edges never stops. -/

namespace Sys2Proof.Machine

/-- Settles O9. -/
theorem everyEdgeHasANextState : Obligations.EveryEdgeHasANextState := fun s hp =>
  ⟨s.after, step_eq hp, s.after_params, s.after_inputs, s.after_held, s.after_edge⟩

/-- Settles O34: the invariant has the parameters in range, so an edge has a next state, and it has the invariant again. -/
theorem runsNeverStopAndKeepTheInvariant : Obligations.RunsNeverStopAndKeepTheInvariant := by
  intro s k hs
  induction k generalizing s with
  | zero => exact ⟨s, rfl, hs, rfl⟩
  | succ k ih =>
    obtain ⟨t, hrun, ht, hedge⟩ := ih s.after hs.after
    refine ⟨t, (runEdges_succ hs.paramsOk k).trans hrun, ht, ?_⟩
    rw [hedge, State.after_edge]
    omega

end Sys2Proof.Machine

/-! PROOFS. O38: the outcome of a finished cycle. -/

namespace Sys2Proof.Machine

/-- The codes `CHECK` gives, each with its cause (42_frame_checksum.md R118); a bit timeout goes before a checksum mismatch
(60_exceptions.md R144). -/
theorem verdictErr_iff (p : Params) (x : Frame) (toSeen : Bool) :
    (verdictErr p x toSeen = 0#2 ↔ toSeen = false ∧ checksumOk p x = true) ∧
    (verdictErr p x toSeen = 2#2 ↔ toSeen = true) ∧
    (verdictErr p x toSeen = 3#2 ↔ toSeen = false ∧ checksumOk p x = false) := by
  cases toSeen <;> cases hok : checksumOk p x <;> simp [verdictErr, hok]

/-- A handshake abort happens in a handshake wait. -/
theorem State.AbortsHandshake.code {s : State} (h : s.AbortsHandshake) : s.st = 3#4 ∨ s.st = 4#4 ∨ s.st = 5#4 := by
  obtain ⟨ph, hph, hst, -⟩ := h
  rw [hst]
  exact (ph.code_cases hph).imp And.left (Or.imp And.left And.left)

/-- Settles O38: the edge is `CHECK`'s, whose verdict names the cause, or a handshake abort, which is none of `CHECK`'s. -/
theorem finishedCycleHasOneOutcome : Obligations.FinishedCycleHasOneOutcome := by
  intro s t hrst hstep hdone
  obtain ⟨-, rfl⟩ := step_next hstep
  rcases (State.after_done_iff hrst).1 hdone with hst | habort
  · obtain ⟨hnone, htimeout, hchecksum⟩ := verdictErr_iff s.params s.sr s.toSeen
    have hcheck : s.after = s.clearPulses.checkOp.nextEdge := State.after_operation (op := .check) hrst hst
    have hvalid : s.after.valid = verdictValid s.params s.sr s.toSeen := by rw [hcheck]; rfl
    have herr : s.after.err = verdictErr s.params s.sr s.toSeen := by rw [hcheck]; rfl
    rw [hvalid, herr]
    refine ⟨verdictValid_iff _ _ _, ?_, ?_, ?_, ?_⟩
    · simp [hst, hnone]
    · simp [hst, verdictErr_ne_errHandshake]
    · simp [hst, htimeout]
    · simp [hst, hchecksum]
  · have hvalid : s.after.valid = false := by rw [habort.after hrst]; rfl
    have herr : s.after.err = 1#2 := by rw [habort.after hrst]; rfl
    have hnotCheck : s.st ≠ 8#4 := by rcases habort.code with h | h | h <;> rw [h] <;> decide
    rw [hvalid, herr]
    simp [hnotCheck, habort.code]

end Sys2Proof.Machine

/-! PROOFS. O41: where `start` is read. -/

namespace Sys2Proof.Machine

/-- Two states whose next edges agree have the same runs from that edge on. -/
theorem runEdges_succ_congr {s u : State} {k : Nat} (hstep : step s = step u) :
    runEdges (k + 1) s = runEdges (k + 1) u := by
  simp only [runEdges, hstep]

/-- Settles O41: the first edge looks at `start` in `IDLE` alone and uses its entry up, so no later edge sees it. -/
theorem startIsIgnoredWhileBusy : Obligations.StartIsIgnoredWhileBusy := by
  intro s x rest v k hbusy hk
  obtain ⟨k, rfl⟩ := Nat.exists_eq_add_one.2 hk
  have hnotIdle : s.st ≠ 0#4 := of_decide_eq_true hbusy
  exact runEdges_succ_congr (step_congr rfl
    (s.after_changePins rest rfl (fun hst => absurd hst hnotIdle) (fun _ _ => rfl) (fun _ => rfl)))

end Sys2Proof.Machine

/-! PROOFS. O3, O4, O5, O32: a reset edge, what the block shows after it, and the edge that follows. -/

namespace Sys2Proof.Machine

/-- An edge with `rst` = 1 is a reset edge, whatever `st` and the other pins are (70_reset_and_hazards.md R160). -/
theorem step_reset {s : State} (hp : s.params.ok = true) (hrst : s.pins.rst = true) : step s = .next s.resetEdge := by
  rw [step_eq hp, State.after_reset hrst]

theorem State.reset_registersReset : State.reset.registersReset := by
  simp [State.registersReset, State.reset]

theorem State.resetEdge_registersReset (s : State) : s.resetEdge.registersReset := by
  simp [State.registersReset]

/-- Settles O3. -/
theorem resetEdgeClearsEveryRegister : Obligations.ResetEdgeClearsEveryRegister :=
  ⟨State.reset_registersReset, fun s hp hrst => ⟨s.resetEdge, step_reset hp hrst, s.resetEdge_registersReset⟩⟩

/-- In `IDLE` the line is released and the block is not busy (10_state.md R15, R16). -/
theorem State.released_of_idle {s : State} (hst : s.st = 0#4) :
    s.lineOe = false ∧ s.lineOut = true ∧ s.busy = false := by
  rw [State.lineOe, State.lineOut, State.busy, hst]
  decide

/-- Settles O4: the line outputs and `busy` are those of `IDLE`, the data outputs those of a block with `valid` = 0, and
the others are registers. -/
theorem outputsAfterReset : Obligations.OutputsAfterReset := by
  intro s hp hrst
  obtain ⟨hoe, hout, hbusy⟩ := State.released_of_idle (s := s.resetEdge) rfl
  have hdata := State.dataOutputs_of_not_valid (s := s.resetEdge) rfl
  simp only [State.dataOutputs, Prod.mk.injEq] at hdata
  exact ⟨s.resetEdge, step_reset hp hrst, by simp [hoe, hout, hbusy, hdata]⟩

/-- Settles O5: the reset edge leaves `IDLE` with the second entry at the pins, and `IDLE` obeys that entry's `start`. -/
theorem resetBeatsStart : Obligations.ResetBeatsStart := by
  intro s x y rest hp hins hx
  have hrst : s.pins.rst = true := State.pins_of_inputs hins ▸ hx
  have hrun : runEdges 1 s = .next s.resetEdge := by
    rw [runEdges_succ hp, State.after_reset hrst, runEdges_zero]
  have hpins : s.resetEdge.pins = y := State.pins_of_inputs (by rw [State.resetEdge_inputs, hins, List.tail_cons])
  have hnext : step s.resetEdge = .next s.resetEdge.after := step_eq hp
  obtain ⟨-, -, hbusy⟩ := State.released_of_idle (s := s.resetEdge) rfl
  refine ⟨s.resetEdge, hrun, rfl, hbusy, fun hy hstart => ⟨_, hnext, ?_⟩, fun hy hstart => ⟨_, hnext, ?_⟩⟩
  · rw [State.after_idle rfl (hpins ▸ hy) (hpins ▸ hstart)]; rfl
  · rw [State.after_accept rfl (hpins ▸ hy) (hpins ▸ hstart)]; rfl

/-- Settles O32: `State.reset` is the reset state of a block with this hardware's parameters and no inputs yet. -/
theorem invariantHoldsAtReset : Obligations.InvariantHoldsAtReset :=
  ⟨State.resetWith_inv (p := Params.hardware) (by decide) [] none, fun _ xs h hp => State.resetWith_inv hp xs h⟩

end Sys2Proof.Machine

/-! PROOFS. O52: the clocks at which the comparator tells the document's two pulses apart. -/

namespace Sys2Proof.Machine

/-- R11's condition is about the comparator: at any threshold it says that the 28 microsecond pulse is decoded as 0 and
the 70 microsecond pulse as 1. -/
theorem classifiesDocument_iff (p : Params) : p.classifiesDocument = true ↔
    classify p (28 * p.ticksPerUs) = false ∧ classify p (70 * p.ticksPerUs) = true := by
  simp [Params.classifiesDocument, classify]

/-- Settles O52: 28·T < 280 ≤ 70·T holds for T from 4 to 9. -/
theorem documentPulsesFixTheClockRange : Obligations.DocumentPulsesFixTheClockRange := by
  intro p hthreshold
  refine ⟨?_, classifiesDocument_iff p⟩
  rw [Params.classifiesDocument, decide_eq_true_iff, hthreshold]
  omega

end Sys2Proof.Machine
